-- ==== Sys2Proof/Word.lean ====
section
/-! DEFINITION. The word types of the sequencer (spec/00_scope.md R9, R10): every register holds an
unsigned integer of its stated width. An address has ADDR_W bits, a parameter of the machine (R9), and
is held as a Nat below 2^ADDR_W. -/

namespace Sys2Proof

/-- A byte of a collaborator's memory (`20_memory.md` R50). DESIGN CHOICE (unsafe): eight bits, log entry 9. -/
abbrev Byte := BitVec 8

/-- A memory handle, MEMSEL_W = 64 bits (`10_state.md` R25). -/
abbrev Handle := BitVec 64

/-- A 64-bit counter or operand: SEQ, RUNCNT, RUNMAX, `max_instructions` (`00_scope.md` R9). -/
abbrev Word64 := BitVec 64

/-- The host command word CW[66:0] (`30_encoding.md` R71). -/
abbrev CommandWord := BitVec 67

/-- The trap-kind code TK[7:0] (`30_encoding.md` R73). -/
abbrev TrapCode := BitVec 8

end Sys2Proof
end

