-- ==== Sys2Proof/Syntax.lean ====
section
/-! DEFINITION. The instructions: the 23 rows of spec/opcode_table.json (`30_encoding.md` R78), the
four formats they are written in and the twelve phases. -/

namespace Sys2Proof

/-- The four encoded formats (`30_encoding.md` R70). -/
inductive Format where
  /-- The 67-bit host command word (R71). -/
  | cmd
  /-- The 8-bit trap-kind code (R73). -/
  | tk
  /-- The 1-bit no-op answer (R74). -/
  | np
  /-- The 4-bit phase code (R75). -/
  | ph
  deriving DecidableEq, Repr

/-- The twelve phases PH1 to PH12 (`30_encoding.md` R75). -/
inductive Phase where
  | fetch | seq | read | exec | mem | wb | trap | pc | nop | trace | dispatch | syscall
  deriving DecidableEq, Repr

/-- One constructor per row of spec/opcode_table.json. Operands are typed by the width the format
gives them, so that no value of an operand is ill-formed. -/
inductive Instr where
  /-- CONSTRUCT(log_enabled, syscalls_ignored), `40_host_commands.md` R90. -/
  | construct (logEnabled syscallsIgnored : Bool)
  /-- BIND_MEMORY(handle), R91. -/
  | bindMemory (handle : Handle)
  /-- INIT(), R92. -/
  | init
  /-- STEP(), R93. -/
  | step
  /-- RUN(max_instructions), R94. -/
  | run (maxInstructions : Word64)
  /-- Trap class NoTrap with its sub-code, `42_trap_dispatch.md` R122. -/
  | kNotrap (sub : BitVec 6)
  /-- Trap class Syscall, R123. -/
  | kSyscall (sub : BitVec 6)
  /-- Trap class Halt, R124. -/
  | kHalt (sub : BitVec 6)
  /-- Trap class Other, R125. -/
  | kOther (sub : BitVec 6)
  /-- Progress class 0, R128. -/
  | npNonnop
  /-- Progress class 1, R127. -/
  | npNop
  /-- PH1, `41_step_sequence.md` R101. -/
  | phFetch
  /-- PH2, R102. -/
  | phSeq
  /-- PH3, R103. -/
  | phRead
  /-- PH4, R104. -/
  | phExec
  /-- PH5, R105. -/
  | phMem
  /-- PH6, R106. -/
  | phWb
  /-- PH7, R107. -/
  | phTrap
  /-- PH8, R108. -/
  | phPc
  /-- PH9, R109. -/
  | phNop
  /-- PH10, `42_trap_dispatch.md` R121. -/
  | phTrace
  /-- PH11, R120. -/
  | phDispatch
  /-- PH12, R123. -/
  | phSyscall
  deriving DecidableEq, Repr

/-- The format an instruction's word is written in. -/
def Instr.format : Instr → Format
  | .construct .. | .bindMemory .. | .init | .step | .run .. => .cmd
  | .kNotrap .. | .kSyscall .. | .kHalt .. | .kOther .. => .tk
  | .npNonnop | .npNop => .np
  | .phFetch | .phSeq | .phRead | .phExec | .phMem | .phWb | .phTrap | .phPc | .phNop
  | .phTrace | .phDispatch | .phSyscall => .ph

end Sys2Proof
end

