-- ==== Sys2Proof/WellFormed.lean ====
section
/-! DEFINITION. Which words are words of a format and name a row (`30_encoding.md` R70 to R81). The
operands of `Instr` are typed by their widths, so an instruction itself cannot be ill-formed: the
checks are on words, before decoding. -/

namespace Sys2Proof

/-- The width of a format, in bits: R71, R73, R74, R75. -/
def Format.width : Format → Nat
  | .cmd => 67
  | .tk => 8
  | .np => 1
  | .ph => 4

/-- The word has no bit above its format's width (R81: every format has one length). -/
def fitsFormat (f : Format) (w : Nat) : Bool := decide (w < 2 ^ f.width)

/-- The word selects a row of its format: a command word's opcode is not reserved (R79 a), a phase
code is 1 to 12 (R75); every trap-kind code is legal (R73) and so is every no-op answer (R74). -/
def selectsRow (f : Format) (w : Nat) : Bool :=
  match f with
  | .cmd => decide (w / 2 ^ 64 ≤ 4)
  | .tk => true
  | .np => true
  | .ph => decide (1 ≤ w) && decide (w ≤ 12)

/-- A word that names an instruction of its format. -/
def wellFormedWord (f : Format) (w : Nat) : Bool := fitsFormat f w && selectsRow f w

end Sys2Proof
end

