-- ==== Sys2Proof/Decode.lean ====
section
/-! DEFINITION. The decoder and the encoder of the four formats, written from the tables of
spec/30_encoding.md (R71 to R75), and the opcode table itself. -/

namespace Sys2Proof

/-! ### Decoding -/

/-- `op` = CW[66:64] (R71). -/
def commandOp (cw : CommandWord) : BitVec 3 := cw.extractLsb' 64 3

/-- `arg` = CW[63:0] (R71). -/
def commandArg (cw : CommandWord) : Word64 := cw.extractLsb' 0 64

/-- The class K = TK[7:6] (R73). -/
def trapClass (tk : TrapCode) : BitVec 2 := tk.extractLsb' 6 2

/-- The sub-code TK[5:0] (R73). -/
def trapSub (tk : TrapCode) : BitVec 6 := tk.extractLsb' 0 6

/-- Format CMD (R71, R72): the operand bits a command does not use are dropped; opcodes 5, 6 and 7
are reserved and name no command (R79 a). -/
def decodeCommand (cw : CommandWord) : Option Instr :=
  let arg := commandArg cw
  match (commandOp cw).toNat with
  | 0 => some (.construct (arg.getLsbD 0) (arg.getLsbD 1))
  | 1 => some (.bindMemory arg)
  | 2 => some .init
  | 3 => some .step
  | 4 => some (.run arg)
  | _ => none

/-- Format TK (R73): every one of the 256 codes is legal. -/
def decodeTrap (tk : TrapCode) : Instr :=
  match (trapClass tk).toNat with
  | 0 => .kNotrap (trapSub tk)
  | 1 => .kSyscall (trapSub tk)
  | 2 => .kHalt (trapSub tk)
  | _ => .kOther (trapSub tk)

/-- Format NP (R74). -/
def decodeNoOp (np : BitVec 1) : Instr :=
  if np = 1#1 then .npNop else .npNonnop

/-- The row of format PH that a phase is. -/
def Phase.instr : Phase → Instr
  | .fetch => .phFetch
  | .seq => .phSeq
  | .read => .phRead
  | .exec => .phExec
  | .mem => .phMem
  | .wb => .phWb
  | .trap => .phTrap
  | .pc => .phPc
  | .nop => .phNop
  | .trace => .phTrace
  | .dispatch => .phDispatch
  | .syscall => .phSyscall

/-- The phase of a code 1 to 12 (R75). -/
def phaseOfCode : Nat → Option Phase
  | 1 => some .fetch
  | 2 => some .seq
  | 3 => some .read
  | 4 => some .exec
  | 5 => some .mem
  | 6 => some .wb
  | 7 => some .trap
  | 8 => some .pc
  | 9 => some .nop
  | 10 => some .trace
  | 11 => some .dispatch
  | 12 => some .syscall
  | _ => none

/-- Format PH (R75): codes 0, 13, 14 and 15 select no phase. -/
def decodePhase (ph : BitVec 4) : Option Instr := (phaseOfCode ph.toNat).map Phase.instr

/-- The instruction a word of a format stands for; none where the word does not fit the format or
selects no row. -/
def decode (f : Format) (w : Nat) : Option Instr :=
  if fitsFormat f w then
    match f with
    | .cmd => decodeCommand (BitVec.ofNat 67 w)
    | .tk => some (decodeTrap (BitVec.ofNat 8 w))
    | .np => some (decodeNoOp (BitVec.ofNat 1 w))
    | .ph => decodePhase (BitVec.ofNat 4 w)
  else none

/-- The format in which a word of spec/opcode_table.json is read when only its length in whole bytes
is known. DESIGN CHOICE (safe), log entry 18: formats TK, NP and PH all have one byte, so a one-byte
word is read in the narrowest format that has a row for its value. A length below a byte is read as
that format's own width. -/
def tableFormat (nbits w : Nat) : Format :=
  if 8 < nbits then .cmd
  else if nbits ≤ 1 then .np
  else if nbits ≤ 4 then .ph
  else if w ≤ 1 then .np
  else if w ≤ 12 then .ph
  else .tk

/-- The instruction the decoder reads from a word of the opcode table. -/
def decodeTableWord (nbits w : Nat) : Option Instr := decode (tableFormat nbits w) w

/-! ### Encoding -/

/-- The phase code of R75. -/
def Phase.code : Phase → Nat
  | .fetch => 1
  | .seq => 2
  | .read => 3
  | .exec => 4
  | .mem => 5
  | .wb => 6
  | .trap => 7
  | .pc => 8
  | .nop => 9
  | .trace => 10
  | .dispatch => 11
  | .syscall => 12

/-- A command word `op ‖ arg` (R71). -/
def commandWord (op : BitVec 3) (arg : Word64) : CommandWord := op ++ arg

/-- A trap-kind code `K ‖ sub` (R73). -/
def trapWord (k : BitVec 2) (sub : BitVec 6) : TrapCode := k ++ sub

/-- CONSTRUCT's operand: bit 0 `log_enabled`, bit 1 `syscalls_ignored`, the ignored bits zero (R71). -/
def constructArg (logEnabled syscallsIgnored : Bool) : Word64 :=
  0#62 ++ BitVec.ofBool syscallsIgnored ++ BitVec.ofBool logEnabled

/-- The word of an instruction, in its own format; the operand bits it does not use are zero. -/
def encode : Instr → Nat
  | .construct l g => (commandWord 0#3 (constructArg l g)).toNat
  | .bindMemory h => (commandWord 1#3 h).toNat
  | .init => (commandWord 2#3 0#64).toNat
  | .step => (commandWord 3#3 0#64).toNat
  | .run n => (commandWord 4#3 n).toNat
  | .kNotrap sub => (trapWord 0#2 sub).toNat
  | .kSyscall sub => (trapWord 1#2 sub).toNat
  | .kHalt sub => (trapWord 2#2 sub).toNat
  | .kOther sub => (trapWord 3#2 sub).toNat
  | .npNonnop => 0
  | .npNop => 1
  | .phFetch => Phase.fetch.code
  | .phSeq => Phase.seq.code
  | .phRead => Phase.read.code
  | .phExec => Phase.exec.code
  | .phMem => Phase.mem.code
  | .phWb => Phase.wb.code
  | .phTrap => Phase.trap.code
  | .phPc => Phase.pc.code
  | .phNop => Phase.nop.code
  | .phTrace => Phase.trace.code
  | .phDispatch => Phase.dispatch.code
  | .phSyscall => Phase.syscall.code

/-! ### The opcode table -/

/-- One row of spec/opcode_table.json: its mnemonic, its format, its match and its mask. -/
structure Row where
  mnemonic : String
  format : Format
  pattern : Nat
  mask : Nat
  deriving DecidableEq, Repr

/-- The rows of format CMD (R71: mask 0x70000000000000000, match `op << 64`). -/
def commandRows : List Row :=
  [⟨"CONSTRUCT", .cmd, 0x00000000000000000, 0x70000000000000000⟩,
   ⟨"BIND_MEMORY", .cmd, 0x10000000000000000, 0x70000000000000000⟩,
   ⟨"INIT", .cmd, 0x20000000000000000, 0x70000000000000000⟩,
   ⟨"STEP", .cmd, 0x30000000000000000, 0x70000000000000000⟩,
   ⟨"RUN", .cmd, 0x40000000000000000, 0x70000000000000000⟩]

/-- The rows of formats TK (R73) and NP (R74). -/
def answerRows : List Row :=
  [⟨"K.NOTRAP", .tk, 0x00, 0xC0⟩, ⟨"K.SYSCALL", .tk, 0x40, 0xC0⟩,
   ⟨"K.HALT", .tk, 0x80, 0xC0⟩, ⟨"K.OTHER", .tk, 0xC0, 0xC0⟩,
   ⟨"NP.NONNOP", .np, 0x0, 0x1⟩, ⟨"NP.NOP", .np, 0x1, 0x1⟩]

/-- The rows of format PH (R75). -/
def phaseRows : List Row :=
  [⟨"PH.FETCH", .ph, 0x1, 0xF⟩, ⟨"PH.SEQ", .ph, 0x2, 0xF⟩, ⟨"PH.READ", .ph, 0x3, 0xF⟩,
   ⟨"PH.EXEC", .ph, 0x4, 0xF⟩, ⟨"PH.MEM", .ph, 0x5, 0xF⟩, ⟨"PH.WB", .ph, 0x6, 0xF⟩,
   ⟨"PH.TRAP", .ph, 0x7, 0xF⟩, ⟨"PH.PC", .ph, 0x8, 0xF⟩, ⟨"PH.NOP", .ph, 0x9, 0xF⟩,
   ⟨"PH.TRACE", .ph, 0xA, 0xF⟩, ⟨"PH.DISPATCH", .ph, 0xB, 0xF⟩, ⟨"PH.SYSCALL", .ph, 0xC, 0xF⟩]

/-- The whole opcode map: 23 rows and no others (R78). -/
def opcodeTable : List Row := commandRows ++ answerRows ++ phaseRows

/-- A word of a format matches a row. -/
def Row.hits (r : Row) (f : Format) (w : Nat) : Bool :=
  decide (r.format = f) && decide (w &&& r.mask = r.pattern)

/-- The mnemonic of an instruction, as the table spells it. -/
def Instr.mnemonic : Instr → String
  | .construct .. => "CONSTRUCT"
  | .bindMemory .. => "BIND_MEMORY"
  | .init => "INIT"
  | .step => "STEP"
  | .run .. => "RUN"
  | .kNotrap .. => "K.NOTRAP"
  | .kSyscall .. => "K.SYSCALL"
  | .kHalt .. => "K.HALT"
  | .kOther .. => "K.OTHER"
  | .npNonnop => "NP.NONNOP"
  | .npNop => "NP.NOP"
  | .phFetch => "PH.FETCH"
  | .phSeq => "PH.SEQ"
  | .phRead => "PH.READ"
  | .phExec => "PH.EXEC"
  | .phMem => "PH.MEM"
  | .phWb => "PH.WB"
  | .phTrap => "PH.TRAP"
  | .phPc => "PH.PC"
  | .phNop => "PH.NOP"
  | .phTrace => "PH.TRACE"
  | .phDispatch => "PH.DISPATCH"
  | .phSyscall => "PH.SYSCALL"

end Sys2Proof
end

