-- ==== Sys2Proof/Machine/World.lean ====
section
/-! DEFINITION. The data of the world W and of the in-flight instruction I, which the sequencer
touches and does not own (spec/00_scope.md R12, spec/10_state.md R30 to R33), and the shape of a
collaborator's response. -/

namespace Sys2Proof.Machine

/-- A collaborator's response to one transaction (`00_scope.md` R12, R16; `70_reset_and_hazards.md` R169). -/
inductive Resp (α β : Type) where
  /-- The transaction answers. -/
  | answer (a : α)
  /-- The collaborator-originated fault; `left` is what the aborted transaction left behind
  (`41_step_sequence.md` R110). -/
  | abort (left : β)
  /-- The collaborator never answers (R169). -/
  | silent
  deriving DecidableEq, Repr, Inhabited

/-- The in-flight decoded instruction (`10_state.md` R30). The ISA-specific parts are uninterpreted
numbers: the spec gives them no width and no meaning (R5, N11, N14; log entry 10). -/
structure Insn where
  /-- Operand descriptors. -/
  operands : List Nat
  /-- Source operand values, written by `ReadSources`. -/
  sources : List Nat
  /-- Computed results, written by `Execute`. -/
  results : List Nat
  /-- The value a load brought in, written by `LoadStore`. -/
  loaded : Option Nat
  /-- An access fault that the memory recorded instead of aborting (`20_memory.md` R64). -/
  accessFault : Option Nat
  /-- The no-op flag, answer of `IsNoOp` (`30_encoding.md` R74). -/
  noOp : BitVec 1
  /-- The trap classification, answer of `TrapKind` (`30_encoding.md` R73). -/
  trapKind : TrapCode
  /-- The next-PC value, answer of `NextPc`. -/
  nextPc : Nat
  /-- The assigned sequence id. -/
  seqId : Word64
  deriving DecidableEq, Repr, Inhabited

/-- The register file's contents, an uninterpreted image (`10_state.md` R32). -/
abbrev RegFile := List Nat

/-- Whatever else the handler's side effects touch, an uninterpreted image (`42_trap_dispatch.md` R123). -/
abbrev HandlerState := List Nat

/-- The contents of the memories, as cells (key, byte); the key names the memory and the address in
it (`cellKey`). An unlisted byte has no value: the spec gives no initial contents (N5). -/
abbrev Memory := List Host.Cell

/-- The canonical form: keys strictly rising. -/
abbrev Memory.wf (m : Memory) : Prop := m.Pairwise (fun a b => a.1 < b.1)

/-- One byte that a `LoadStore` answer stores: an address of the bound memory and the byte. -/
abbrev Store := Nat × Byte

/-- The retired record RR (`30_encoding.md` R77). -/
structure RetiredRecord where
  seqId : Word64
  nextPc : Nat
  tk : TrapCode
  np : BitVec 1
  deriving DecidableEq, Repr, Inhabited

/-- One entry of the trace: the retired record, the side-band bit CFG.LOG_ENABLED and the text the
sink reads from the slot (`42_trap_dispatch.md` R121). -/
structure TraceEntry where
  record : RetiredRecord
  logEnabled : Bool
  text : String
  deriving DecidableEq, Repr, Inhabited

/-- A transaction the sequencer makes (`00_scope.md` R12), with what it presents on the port. -/
inductive Request where
  | startAddress (m : Handle)
  | fetch (m : Handle) (a : Nat)
  | setSeqId (id : Word64)
  | readSources
  | execute
  | loadStore (m : Handle)
  | writeDst
  | checkTrap
  | nextPc
  | isNoOp
  | traceEmit
  | trapKind
  | syscallExecute
  deriving DecidableEq, Repr

/-- What `Fetch` reads: the memory's handle, its contents, the address. -/
structure FetchKey where
  handle : Handle
  contents : Memory
  address : Nat
  deriving DecidableEq, Repr, Inhabited

/-- What `LoadStore` reads: the memory's handle, its contents, the instruction. -/
structure AccessKey where
  handle : Handle
  contents : Memory
  insn : Insn
  deriving DecidableEq, Repr, Inhabited

/-- What `LoadStore` answers: the bytes it stored, in order, and the instruction with its loaded
value or its recorded fault. -/
structure AccessAnswer where
  stores : List Store
  insn : Insn
  deriving DecidableEq, Repr, Inhabited

/-- What `ReadSources` and `WriteDst` are given: the register file and the instruction. -/
structure RegKey where
  regs : RegFile
  insn : Insn
  deriving DecidableEq, Repr, Inhabited

/-- What `CheckTrap` answers (log entry 11). -/
structure TrapAnswer where
  kind : TrapCode
  nextPc : Nat
  deriving DecidableEq, Repr, Inhabited

/-- What `SyscallExecute` reads and writes: the register file and what else the handler touches. -/
structure HandlerWorld where
  regs : RegFile
  handler : HandlerState
  deriving DecidableEq, Repr, Inhabited

/-- The oracles of `00_scope.md` R12 as tables: what a primitive reads, and its response. A request
no table lists is answered by an opaque function of Config, so a table fixes an answer and leaves
every other one free (log entry 1). -/
structure Collab where
  startAddress : List (Handle × Nat)
  fetch : List (FetchKey × Resp Insn Unit)
  readSources : List (RegKey × Resp (List Nat) (List Nat))
  execute : List (Insn × Resp Insn Insn)
  loadStore : List (AccessKey × Resp AccessAnswer AccessAnswer)
  writeDst : List (RegKey × Resp RegFile RegFile)
  checkTrap : List (Insn × Resp TrapAnswer TrapAnswer)
  syscall : List (HandlerWorld × Resp HandlerWorld HandlerWorld)
  text : List (Insn × String)
  deriving DecidableEq, Repr, Inhabited

end Sys2Proof.Machine
end

