-- ==== Sys2Proof/Config.lean ====
section
/-! DEFINITION. What is fixed for the hardware (spec/00_scope.md R9) and the free values: one opaque
function for each answer of a collaborator that no table lists (R12, U15) and for each value the spec
calls unspecified (spec/93_implementation_defined.md U10). None has a body: nothing can be proved of
the value of one. -/

namespace Sys2Proof.Config

open Sys2Proof.Machine

/-- NOP_LIMIT: a step faults when the no-progress counter exceeds it (`00_scope.md` R9, D28). -/
def nopLimit : Nat := 10

/-- The parameter VARIANT, 0 to 8, read by the collaborators only (`30_encoding.md` R84). -/
abbrev Variant := Fin 9

/-- `StartAddress(m)`: immutable for a memory (`10_state.md` R33). DESIGN CHOICE (safe): free, log entry 1. -/
opaque startAddress : Variant → Handle → Nat

/-- `Fetch(m, a)` over the memory's contents. DESIGN CHOICE (safe): free, log entry 1. -/
opaque fetch : Variant → FetchKey → Resp Insn Unit

/-- `ReadSources(W, I)`: the source operand values. DESIGN CHOICE (safe): free, log entry 1. -/
opaque readSources : Variant → RegKey → Resp (List Nat) (List Nat)

/-- `Execute(I)`. DESIGN CHOICE (safe): free, log entry 1. -/
opaque execute : Variant → Insn → Resp Insn Insn

/-- `LoadStore(W, I)`: the bytes stored and the instruction. DESIGN CHOICE (safe): free, log entry 1. -/
opaque loadStore : Variant → AccessKey → Resp AccessAnswer AccessAnswer

/-- `WriteDst(W, I)`: the register file after it. DESIGN CHOICE (safe): free, log entry 1. -/
opaque writeDst : Variant → RegKey → Resp RegFile RegFile

/-- `CheckTrap(I)`: the classification, and the next-PC the instruction answers from then on.
DESIGN CHOICE (safe): free, log entries 1 and 11. -/
opaque checkTrap : Variant → Insn → Resp TrapAnswer TrapAnswer

/-- `SyscallExecute(W)`. DESIGN CHOICE (safe): free, log entry 1. -/
opaque syscall : Variant → HandlerWorld → Resp HandlerWorld HandlerWorld

/-- `Text(I)`, the canonical textual form. DESIGN CHOICE (safe): free, log entry 1. -/
opaque text : Variant → Insn → String

/-- PC after the n-th CONSTRUCT: unspecified (`10_state.md` R38). DESIGN CHOICE (safe): free, log entry 6. -/
opaque unspecifiedPc : Nat → Nat

/-- MEMSEL after the n-th CONSTRUCT: unspecified (`10_state.md` R38). DESIGN CHOICE (safe): free, log entry 6. -/
opaque unspecifiedMemsel : Nat → Handle

end Sys2Proof.Config
end

