-- ==== Sys2Proof/Machine/State.lean ====
section
/-! DEFINITION. The state of the machine, what stops it, and the state after reset
(spec/10_state.md). -/

namespace Sys2Proof.Machine

/-- STATUS.STATE (`10_state.md` R27). -/
inductive RunState where
  | idle | stepping | running | fault
  deriving DecidableEq, Repr, Inhabited

/-- STATUS.TERM (R27). -/
inductive Term where
  | none | notrap | halt | runaway | collabFault
  deriving DecidableEq, Repr, Inhabited

/-- STATUS.ERR (R27, `40_host_commands.md` R96). -/
inductive Err where
  | ok | badCmd | noMem | noInit | inFault
  deriving DecidableEq, Repr, Inhabited

/-- What `raise` names (`60_exceptions.md` R147). -/
inductive FaultCause where
  /-- RunawayExecution (`42_trap_dispatch.md` R129). -/
  | runaway
  /-- A collaborator's abort of the transaction of phase `p` (`41_step_sequence.md` R110). -/
  | collab (p : Phase)
  deriving DecidableEq, Repr

/-- What the host presents: a command word on the command port (`30_encoding.md` R71), or a change
of the world W between commands (`20_memory.md` R63): of a byte of a memory, of the register file, of
what else the system-call handler touches (`00_scope.md` R12; log entry 17). -/
inductive HostEvent where
  | command (cw : CommandWord)
  | poke (m : Handle) (a : Nat) (b : Byte)
  | setRegs (r : RegFile)
  | setHandler (w : HandlerState)
  deriving DecidableEq, Repr

/-- The state. The INVENTORY's '## State' gives each field's width, rule and reset value. -/
structure State where
  /-- ADDR_W, a parameter (`00_scope.md` R9). -/
  addrW : Nat
  /-- VARIANT, a parameter the sequencer never reads (`30_encoding.md` R84). -/
  variant : Config.Variant
  /-- PC (`10_state.md` R21). -/
  pc : Nat
  /-- SEQ (R22). -/
  seq : Word64
  /-- NOPCNT (R23). -/
  nopcnt : BitVec 32
  /-- CFG.LOG_ENABLED (R24). -/
  logEnabled : Bool
  /-- CFG.SYSCALLS_IGNORED (R24, R34). -/
  syscallsIgnored : Bool
  /-- STATUS.MEM_BOUND (R25). -/
  memBound : Bool
  /-- MEMSEL (R25). -/
  memsel : Handle
  /-- STATUS.PC_VALID (R26). -/
  pcValid : Bool
  /-- STATUS.STATE (R27). -/
  runState : RunState
  /-- STATUS.PHASE: the phase in progress (R27). -/
  phase : Option Phase
  /-- STATUS.TERM (R27). -/
  term : Term
  /-- STATUS.ERR (R27). -/
  err : Err
  /-- STATUS.FPHASE (R27). -/
  fphase : Option Phase
  /-- RUNCNT (R28). -/
  runcnt : Word64
  /-- RUNMAX (R28). -/
  runmax : Word64
  /-- The instruction slot (R30). -/
  slot : Option Insn
  /-- The retired record and its strobe (`30_encoding.md` R77). -/
  record : Option RetiredRecord
  /-- The memories' contents (R33). -/
  mem : Memory
  /-- The register file's contents (R32). -/
  regs : RegFile
  /-- What else the system-call handler touches (`00_scope.md` R12). -/
  handler : HandlerState
  /-- The trace, oldest entry first (`42_trap_dispatch.md` R121). -/
  trace : List TraceEntry
  /-- The model's port: what the host presents and the sequencer has not taken (`40_host_commands.md` R95). -/
  host : List HostEvent
  /-- The model's port: the transactions made so far, oldest first (`00_scope.md` R12). -/
  requests : List Request
  /-- The model's port: the collaborators' answers (R12). -/
  collab : Collab
  /-- The model's counter of free values used. -/
  free : Nat
  deriving DecidableEq, Repr

/-- Why a step has no next state. -/
inductive Fault where
  /-- Raised by PH1, PH3, PH4, PH5, PH6, PH7 and PH12 when the collaborator never answers: the
  sequencer is stuck (`70_reset_and_hazards.md` R169, log entry 5). Safe: no state is claimed. -/
  | noAnswer (p : Phase)
  /-- Raised by PH2 to PH10 (and PH11) when no instruction is in the slot. No run reaches it: the
  slot holds an instruction from PH1 on (`10_state.md` R30, log entry 20). Safe. -/
  | emptySlot (p : Phase)
  /-- Raised by the step when a command is in progress and PHASE is 0. No run reaches it (R27, log
  entry 20). Safe. -/
  | noPhase
  deriving DecidableEq, Repr

/-- Why an instruction has no meaning. -/
inductive Refusal where
  /-- Raised by an arm of `exec` whose instruction is not modelled; no arm raises it. Safe. -/
  | notModelled (mnemonic : String)
  deriving DecidableEq, Repr

/-- No answer listed: every answer of a collaborator is free. -/
def Collab.unlisted : Collab :=
  { startAddress := [], fetch := [], readSources := [], execute := [], loadStore := [],
    writeDst := [], checkTrap := [], syscall := [], text := [] }

/-- The state after power-on reset, CONSTRUCT(0, 0): `10_state.md` R38, `70_reset_and_hazards.md`
R160 and R161. DESIGN CHOICE (unsafe): `pc` and `memsel` are unspecified there and 0 here (log entry
6); `addrW` and `variant` are open parameters (log entry 2); the world's contents are its own and
empty here (log entry 8); `free` starts at 0 (log entry 7). -/
def State.reset : State :=
  { addrW := 64, variant := 0,
    pc := 0, seq := 0, nopcnt := 0, logEnabled := false, syscallsIgnored := false,
    memBound := false, memsel := 0, pcValid := false,
    runState := .idle, phase := none, term := .none, err := .ok, fphase := none,
    runcnt := 0, runmax := 0, slot := none, record := none,
    mem := [], regs := [], handler := [], trace := [],
    host := [], requests := [], collab := Collab.unlisted, free := 0 }

end Sys2Proof.Machine
end

