-- ==== Sys2Proof/Machine/Flags.lean ====
section
/-! DEFINITION. The status and configuration registers as the host reads them (spec/10_state.md R24,
R27, R29; `40_host_commands.md` R97) and the tests the sequencer makes on its flags. -/

namespace Sys2Proof.Machine

/-- The STATE code (R27). -/
def stateCode : RunState → BitVec 4
  | .idle => 0
  | .stepping => 1
  | .running => 2
  | .fault => 3

/-- The TERM code (R27). -/
def termCode : Term → BitVec 3
  | .none => 0
  | .notrap => 1
  | .halt => 2
  | .runaway => 3
  | .collabFault => 4

/-- The ERR code (R27). -/
def errCode : Err → BitVec 3
  | .ok => 0
  | .badCmd => 1
  | .noMem => 2
  | .noInit => 3
  | .inFault => 4

/-- The PHASE or FPHASE code: 0 for none (R27, `30_encoding.md` R75). -/
def phaseCode : Option Phase → BitVec 4
  | none => 0
  | some p => BitVec.ofNat 4 p.code

/-- STATUS (R27): STATE 3:0, PHASE 7:4, MEM_BOUND 8, PC_VALID 9, TERM 12:10, ERR 15:13, FPHASE
19:16, the rest read as 0. -/
def statusWord (s : State) : BitVec 32 :=
  0#12 ++ phaseCode s.fphase ++ errCode s.err ++ termCode s.term ++ BitVec.ofBool s.pcValid
    ++ BitVec.ofBool s.memBound ++ phaseCode s.phase ++ stateCode s.runState

/-- CFG (R24): LOG_ENABLED 0, SYSCALLS_IGNORED 1, the rest read as 0. -/
def cfgWord (s : State) : BitVec 32 :=
  0#30 ++ BitVec.ofBool s.syscallsIgnored ++ BitVec.ofBool s.logEnabled

/-- In state IDLE or FAULT, no command in progress (`00_scope.md` R16). -/
def quiescent (s : State) : Bool :=
  match s.runState with
  | .idle | .fault => true
  | .stepping | .running => false

/-- The host's read of register `n` (R29): while quiescent only (R97), without side effect, so a
function and no step. The answer is the register's unsigned value; none where the read is not
allowed or the number names no register. -/
def hostRead (s : State) (n : Nat) : Option Nat :=
  if quiescent s then
    match n with
    | 0 => some s.pc
    | 1 => some s.seq.toNat
    | 2 => some s.nopcnt.toNat
    | 3 => some (cfgWord s).toNat
    | 4 => some (statusWord s).toNat
    | 5 => some s.memsel.toNat
    | 6 => some s.runcnt.toNat
    | 7 => some s.runmax.toNat
    | _ => none
  else none

/-- PH9's comparison `NOPCNT > 10` on the updated counter (`41_step_sequence.md` R112). -/
def exceedsNopLimit (n : BitVec 32) : Bool := decide (Config.nopLimit < n.toNat)

/-- The loop condition RUNCNT < RUNMAX, unsigned (`42_trap_dispatch.md` R132). -/
def runContinues (s : State) : Bool := decide (s.runcnt.toNat < s.runmax.toNat)

end Sys2Proof.Machine
end

