-- ==== Sys2Proof/Machine/Memory.lean ====
section
/-! DEFINITION. The memories' contents: one list of cells in canonical form (spec/20_memory.md R50).
The key of a cell names the memory and the address in it. -/

namespace Sys2Proof.Machine

/-- The key of the byte at address `a` of memory `h`. -/
def cellKey (h : Handle) (a : Nat) : Nat := a * 2 ^ 64 + h.toNat

/-- The memory a key names. -/
def keyHandle (k : Nat) : Handle := BitVec.ofNat 64 k

/-- The address a key names. -/
def keyAddress (k : Nat) : Nat := k / 2 ^ 64

/-- The byte listed under a key. -/
def Memory.find : Memory → Nat → Option Byte
  | [], _ => none
  | (k, b) :: rest, key => if k = key then some b else Memory.find rest key

/-- Put a byte under a key, keeping the keys strictly rising. -/
def Memory.put : Memory → Nat → Byte → Memory
  | [], key, b => [(key, b)]
  | (k, c) :: rest, key, b =>
    if key < k then (key, b) :: (k, c) :: rest
    else if key = k then (key, b) :: rest
    else (k, c) :: Memory.put rest key b

/-- The byte at address `a` of memory `h`; none where nothing has been written (log entry 8). -/
def Memory.read (m : Memory) (h : Handle) (a : Nat) : Option Byte := m.find (cellKey h a)

/-- Write the byte at address `a` of memory `h`. -/
def Memory.write (m : Memory) (h : Handle) (a : Nat) (b : Byte) : Memory := m.put (cellKey h a) b

/-- Write a list of bytes in order; an address is cut to ADDR_W bits by the port (log entry 21). -/
def Memory.storeAll (m : Memory) (h : Handle) (addrW : Nat) (stores : List Store) : Memory :=
  stores.foldl (fun acc st => acc.write h (st.1 % 2 ^ addrW) st.2) m

/-- The contents of one memory, as a collaborator sees it: (address, byte) pairs. -/
def Memory.image (m : Memory) (h : Handle) : Memory :=
  (m.filter (fun c => keyHandle c.1 = h)).map (fun c => (keyAddress c.1, c.2))

end Sys2Proof.Machine
end

