-- ==== Sys2Proof/Machine/Operands.lean ====
section
/-! DEFINITION. The answers the sequencer gets on its ports (spec/00_scope.md R12): each is looked up
under exactly what the primitive reads, and is free where no table lists it. A response that is an
instruction keeps the sequence id: only SetSeqId writes it (R12, log entry 10). -/

namespace Sys2Proof.Machine

/-- The first entry listed under a key. -/
def lookupRow {κ ρ : Type} [DecidableEq κ] : List (κ × ρ) → κ → Option ρ
  | [], _ => none
  | (k, r) :: rest, key => if k = key then some r else lookupRow rest key

/-- The port cuts an address to ADDR_W bits (`10_state.md` R21, log entry 21). -/
def State.cut (s : State) (a : Nat) : Nat := a % 2 ^ s.addrW

/-- `StartAddress(MEMSEL)`: always answers (R12). -/
def startAddressOf (s : State) : Nat :=
  s.cut ((lookupRow s.collab.startAddress s.memsel).getD (Config.startAddress s.variant s.memsel))

/-- What `Fetch(MEMSEL, PC)` reads. -/
def fetchKey (s : State) : FetchKey :=
  { handle := s.memsel, contents := s.mem.image s.memsel, address := s.pc }

/-- The answer to `Fetch(MEMSEL, PC)`, from the memory as it is at the request (`20_memory.md` R61). -/
def answerFetch (s : State) : Resp Insn Unit :=
  (lookupRow s.collab.fetch (fetchKey s)).getD (Config.fetch s.variant (fetchKey s))

/-- What `ReadSources` and `WriteDst` are given. -/
def regKey (s : State) (i : Insn) : RegKey := { regs := s.regs, insn := i }

/-- The answer to `ReadSources(W, I)`, from the register file as it is at the request
(`41_step_sequence.md` R103). -/
def answerReadSources (s : State) (i : Insn) : Resp (List Nat) (List Nat) :=
  (lookupRow s.collab.readSources (regKey s i)).getD (Config.readSources s.variant (regKey s i))

/-- The answer to `Execute(I)`. -/
def answerExecute (s : State) (i : Insn) : Resp Insn Insn :=
  (lookupRow s.collab.execute i).getD (Config.execute s.variant i)

/-- What `LoadStore(W, I)` reads: the bound memory and the instruction. -/
def accessKey (s : State) (i : Insn) : AccessKey :=
  { handle := s.memsel, contents := s.mem.image s.memsel, insn := i }

/-- The answer to `LoadStore(W, I)`. -/
def answerLoadStore (s : State) (i : Insn) : Resp AccessAnswer AccessAnswer :=
  (lookupRow s.collab.loadStore (accessKey s i)).getD (Config.loadStore s.variant (accessKey s i))

/-- The answer to `WriteDst(W, I)`. -/
def answerWriteDst (s : State) (i : Insn) : Resp RegFile RegFile :=
  (lookupRow s.collab.writeDst (regKey s i)).getD (Config.writeDst s.variant (regKey s i))

/-- The answer to `CheckTrap(I)`. -/
def answerCheckTrap (s : State) (i : Insn) : Resp TrapAnswer TrapAnswer :=
  (lookupRow s.collab.checkTrap i).getD (Config.checkTrap s.variant i)

/-- What `SyscallExecute` reads. -/
def handlerWorld (s : State) : HandlerWorld := { regs := s.regs, handler := s.handler }

/-- The answer to `SyscallExecute(W)`. -/
def answerSyscall (s : State) : Resp HandlerWorld HandlerWorld :=
  (lookupRow s.collab.syscall (handlerWorld s)).getD (Config.syscall s.variant (handlerWorld s))

/-- `Text(I)`: always answers (R12). -/
def textOf (s : State) (i : Insn) : String :=
  (lookupRow s.collab.text i).getD (Config.text s.variant i)

/-- `SetSeqId(I, id)`. -/
def Insn.setSeqId (i : Insn) (id : Word64) : Insn := { i with seqId := id }

/-- What `ReadSources` writes: the source operand values. -/
def Insn.setSources (i : Insn) (v : List Nat) : Insn := { i with sources := v }

/-- What `CheckTrap` writes: the classification, and with it the next-PC the instruction answers
(`41_step_sequence.md` R107, log entry 11). -/
def Insn.classify (i : Insn) (a : TrapAnswer) : Insn :=
  { i with trapKind := a.kind, nextPc := a.nextPc }

/-- `IsNoOp(I)` (`30_encoding.md` R74). -/
def isNoOp (i : Insn) : BitVec 1 := i.noOp

/-- `TrapKind(I)` (R73). -/
def trapKindOf (i : Insn) : TrapCode := i.trapKind

/-- `NextPc(I)`, cut to ADDR_W bits by the port (`10_state.md` R21). -/
def nextPcOf (s : State) (i : Insn) : Nat := s.cut i.nextPc

end Sys2Proof.Machine
end

