-- ==== Sys2Proof/Machine/Ops.lean ====
section
/-! DEFINITION. The operations the meanings share: making a transaction, refusing a command, fault
entry, the effects of INIT and CONSTRUCT, the end of a step, the loop condition, the progress guard
and the dispatch actions. -/

namespace Sys2Proof.Machine

abbrev Result := Host.Outcome State Fault Refusal

/-- Make a transaction: what the sequencer drives on its ports, in order (`00_scope.md` R7 b). -/
def State.ask (s : State) (r : Request) : State := { s with requests := s.requests ++ [r] }

/-- Refuse a command: ERR names the cause and nothing else changes (`40_host_commands.md` R96). -/
def State.refuse (s : State) (e : Err) : State := { s with err := e }

/-- TERM of a fault (`60_exceptions.md` R147). -/
def FaultCause.term : FaultCause → Term
  | .runaway => .runaway
  | .collab _ => .collabFault

/-- FPHASE of a fault: the phase of a collaborator's abort, 0 for RunawayExecution (R147). -/
def FaultCause.fphase : FaultCause → Option Phase
  | .runaway => none
  | .collab p => some p

/-- Fault entry, the one way an exception is taken (`60_exceptions.md` R147): TERM, FPHASE, STATE and
PHASE are written, `ret_valid` is not asserted, nothing is saved, restored or undone and no control
is transferred. -/
def State.faultEntry (s : State) (c : FaultCause) : State :=
  { s with term := c.term, fphase := c.fphase, runState := .fault, phase := none, record := none }

/-- The effects INIT and RUN share (`40_host_commands.md` R92, R94): the only way back from FAULT
beside CONSTRUCT (`60_exceptions.md` R150). The machine has no return from a trap (R149). -/
def State.initEffects (s : State) (rs : RunState) : State :=
  { s.ask (.startAddress s.memsel) with
    pc := startAddressOf s, nopcnt := 0, pcValid := true, runState := rs,
    term := .none, fphase := none, err := .ok, record := none }

/-- CONSTRUCT (`40_host_commands.md` R90, `10_state.md` R38), which is the hardware's reset
(`70_reset_and_hazards.md` R160). PC and MEMSEL become unspecified: free values (log entry 6). -/
def State.construct (s : State) (logEnabled syscallsIgnored : Bool) : State :=
  { s with
    logEnabled := logEnabled, syscallsIgnored := syscallsIgnored,
    seq := 0, nopcnt := 0, runcnt := 0, runmax := 0,
    memBound := false, pcValid := false, runState := .idle, phase := none,
    term := .none, fphase := none, err := .ok,
    slot := none, record := none,
    pc := s.cut (Config.unspecifiedPc s.free), memsel := Config.unspecifiedMemsel s.free,
    free := s.free + 1 }

/-- The loop condition of a RUN (`42_trap_dispatch.md` R126, R131): the next step's PH1, or the end
of the run with NoTrap. -/
def State.loopCondition (s : State) : State :=
  if runContinues s then { s with phase := some .fetch }
  else { s with term := .notrap, runState := .idle, phase := none }

/-- The retired record of an instruction (`30_encoding.md` R77); `next_pc` is PC after PH8. -/
def State.recordOf (s : State) (i : Insn) : RetiredRecord :=
  { seqId := i.seqId, nextPc := s.pc, tk := trapKindOf i, np := isNoOp i }

/-- The step returns its instruction (`41_step_sequence.md` R111): the record is presented; a STEP
is complete (`40_host_commands.md` R93), a RUN counts the step and goes on to PH10 (R94). -/
def State.returnStep (s : State) : State :=
  match s.runState with
  | .running =>
    { s with record := s.slot.map s.recordOf, runcnt := s.runcnt + 1, phase := some .trace }
  | _ => { s with record := s.slot.map s.recordOf, runState := .idle, phase := none }

/-- Progress class 1 (`42_trap_dispatch.md` R127) and the guard's test on the updated counter (R129). -/
def State.countNoOp (s : State) : State :=
  let n := s.nopcnt + 1
  if exceedsNopLimit n then { s with nopcnt := n }.faultEntry .runaway
  else { s with nopcnt := n }.returnStep

/-- Progress class 0 (R128): the counter is zeroed, and 0 does not exceed the limit. -/
def State.countProgress (s : State) : State := { s with nopcnt := 0 }.returnStep

/-- Class Syscall: PH12 follows, for every setting of CFG (R123, R126). -/
def State.enterSyscall (s : State) : State := { s with phase := some .syscall }

/-- Class Halt: the run is complete (R124). -/
def State.haltRun (s : State) : State :=
  { s with term := .halt, runState := .idle, phase := none }

/-- The action a trap-kind code selects at PH11 (`30_encoding.md` R73, `42_trap_dispatch.md` R120,
R122 to R125): K = tk[7:6]; the sub-code is never read. -/
def State.dispatch (s : State) (tk : TrapCode) : State :=
  match decodeTrap tk with
  | .kSyscall _ => s.enterSyscall
  | .kHalt _ => s.haltRun
  | _ => s.loopCondition

/-- One transaction that can abort: the answer goes on, an abort takes the collaborator fault of the
phase, silence is a stuck sequencer (`41_step_sequence.md` R110, `70_reset_and_hazards.md` R169). -/
def transact {α β : Type} (p : Phase) (r : Resp α β) (onAnswer : α → State) (onAbort : β → State) :
    Result :=
  match r with
  | .answer a => .next (onAnswer a)
  | .abort b => .next ((onAbort b).faultEntry (.collab p))
  | .silent => .fault (.noAnswer p)

/-- Read the instruction slot (`10_state.md` R30). -/
def withSlot (p : Phase) (s : State) (k : Insn → Result) : Result :=
  match s.slot with
  | some i => k i
  | none => .fault (.emptySlot p)

end Sys2Proof.Machine
end

