-- ==== Sys2Proof/Machine/Commands.lean ====
section
/-! DEFINITION. The five host commands (spec/40_host_commands.md R90 to R94), with the refusals of
R96 in the order they are checked. -/

namespace Sys2Proof.Machine

/-- CONSTRUCT (R90): accepted in every quiescent state. -/
def execConstruct (logEnabled syscallsIgnored : Bool) (s : State) : Result :=
  .next (s.construct logEnabled syscallsIgnored)

/-- BIND_MEMORY (R91): replaces the binding, clears PC_VALID, does not leave FAULT. -/
def execBindMemory (handle : Handle) (s : State) : Result :=
  .next { s with memsel := handle, memBound := true, pcValid := false, err := .ok, record := none }

/-- INIT (R92). -/
def execInit (s : State) : Result :=
  if s.memBound then .next (s.initEffects .idle) else .next (s.refuse .noMem)

/-- STEP (R93): accepted, it puts PH1 in progress; the phases do the rest (R100). -/
def execStep (s : State) : Result :=
  if s.runState = .fault then .next (s.refuse .inFault)
  else if s.memBound = false then .next (s.refuse .noMem)
  else if s.pcValid = false then .next (s.refuse .noInit)
  else .next { s with runState := .stepping, err := .ok, phase := some .fetch, record := none }

/-- RUN (R94): INIT's effects, the counters, and the loop condition; RUN(0) ends at once. -/
def execRun (maxInstructions : Word64) (s : State) : Result :=
  if s.memBound then
    .next { s.initEffects .running with runmax := maxInstructions, runcnt := 0 }.loopCondition
  else .next (s.refuse .noMem)

end Sys2Proof.Machine
end

