-- ==== Sys2Proof/Machine/Guard.lean ====
section
/-! DEFINITION. The two progress classes (spec/42_trap_dispatch.md R127 to R129): the guard's action
once PH9 has the answer of IsNoOp, up to the return of the step or the fault. -/

namespace Sys2Proof.Machine

/-- NP.NONNOP (R128). -/
def execNpNonnop (s : State) : Result := .next s.countProgress

/-- NP.NOP (R127, R129). -/
def execNpNop (s : State) : Result := .next s.countNoOp

end Sys2Proof.Machine
end

