-- ==== Sys2Proof/Machine/RunPhases.lean ====
section
/-! DEFINITION. The three phases of the run loop (spec/42_trap_dispatch.md R120, R121, R123). -/

namespace Sys2Proof.Machine

/-- PH.TRACE (R121): the record, the side-band bit and the text go to the sink, whatever the trap
kind, the no-op bit and LOG_ENABLED are. -/
def execPhTrace (s : State) : Result :=
  withSlot .trace s fun i =>
    .next { s.ask .traceEmit with
      trace := s.trace ++ [{ record := s.recordOf i, logEnabled := s.logEnabled, text := textOf s i }],
      phase := some .dispatch }

/-- PH.DISPATCH (R120): the trap kind selects one of the four classes. -/
def execPhDispatch (s : State) : Result :=
  withSlot .dispatch s fun i => .next ((s.ask .trapKind).dispatch (trapKindOf i))

/-- PH.SYSCALL (R123): one transaction with the handler unless syscalls are ignored, then the loop
condition. The handler touches the register file and its own state; it has no access to PC, SEQ,
NOPCNT or the memory (`20_memory.md` R51, log entry 13). -/
def execPhSyscall (s : State) : Result :=
  if s.syscallsIgnored then .next s.loopCondition
  else
    transact .syscall (answerSyscall s)
      (fun a => { s.ask .syscallExecute with regs := a.regs, handler := a.handler }.loopCondition)
      (fun left => { s.ask .syscallExecute with regs := left.regs, handler := left.handler })

end Sys2Proof.Machine
end

