-- ==== Sys2Proof/Machine/StepPhases.lean ====
section
/-! DEFINITION. The nine phases of a step (spec/41_step_sequence.md R100 to R109). Each makes its one
transaction, writes what its rule says, and leaves PHASE at the next phase. An abort leaves in the world
and in the instruction what its answer says (R110, log entry 12). -/

namespace Sys2Proof.Machine

/-- PH.FETCH (R101): a fresh instruction is in the slot and the previous one is gone. -/
def execPhFetch (s : State) : Result :=
  transact .fetch (answerFetch s)
    (fun i => { s.ask (.fetch s.memsel s.pc) with slot := some i, record := none, phase := some .seq })
    (fun _ => s.ask (.fetch s.memsel s.pc))

/-- PH.SEQ (R102): the instruction gets the old value of SEQ, then SEQ is incremented modulo 2^64. -/
def execPhSeq (s : State) : Result :=
  withSlot .seq s fun i =>
    .next { s.ask (.setSeqId s.seq) with
      slot := some (i.setSeqId s.seq), seq := s.seq + 1, phase := some .read }

/-- PH.READ (R103). -/
def execPhRead (s : State) : Result :=
  withSlot .read s fun i =>
    transact .read (answerReadSources s i)
      (fun v => { s.ask .readSources with slot := some (i.setSources v), phase := some .exec })
      (fun left => { s.ask .readSources with slot := some (i.setSources left) })

/-- PH.EXEC (R104): the effect is confined to the instruction. -/
def execPhExec (s : State) : Result :=
  withSlot .exec s fun i =>
    transact .exec (answerExecute s i)
      (fun i' => { s.ask .execute with slot := some (i'.setSeqId i.seqId), phase := some .mem })
      (fun left => { s.ask .execute with slot := some (left.setSeqId i.seqId) })

/-- PH.MEM (R105): asked for every instruction; the bound memory and the instruction may be written. -/
def execPhMem (s : State) : Result :=
  withSlot .mem s fun i =>
    transact .mem (answerLoadStore s i)
      (fun a => { s.ask (.loadStore s.memsel) with
        mem := s.mem.storeAll s.memsel s.addrW a.stores,
        slot := some (a.insn.setSeqId i.seqId), phase := some .wb })
      (fun left => { s.ask (.loadStore s.memsel) with
        mem := s.mem.storeAll s.memsel s.addrW left.stores,
        slot := some (left.insn.setSeqId i.seqId) })

/-- PH.WB (R106): asked for every instruction; the register file may be written. -/
def execPhWb (s : State) : Result :=
  withSlot .wb s fun i =>
    transact .wb (answerWriteDst s i)
      (fun r => { s.ask .writeDst with regs := r, phase := some .trap })
      (fun left => { s.ask .writeDst with regs := left })

/-- PH.TRAP (R107): the classification is computed, not acted on. -/
def execPhTrap (s : State) : Result :=
  withSlot .trap s fun i =>
    transact .trap (answerCheckTrap s i)
      (fun a => { s.ask .checkTrap with slot := some (i.classify a), phase := some .pc })
      (fun left => { s.ask .checkTrap with slot := some (i.classify left) })

/-- PH.PC (R108): PC is the instruction's next-PC, for every instruction. -/
def execPhPc (s : State) : Result :=
  withSlot .pc s fun i =>
    .next { s.ask .nextPc with pc := nextPcOf s i, phase := some .nop }

/-- PH.NOP (R109): the answer of IsNoOp selects the guard's action (`30_encoding.md` R74). -/
def execPhNop (s : State) : Result :=
  withSlot .nop s fun i =>
    .next (match decodeNoOp (isNoOp i) with
      | .npNop => (s.ask .isNoOp).countNoOp
      | _ => (s.ask .isNoOp).countProgress)

end Sys2Proof.Machine
end

