-- ==== Sys2Proof/Machine/TrapClasses.lean ====
section
/-! DEFINITION. The four trap classes (spec/42_trap_dispatch.md R122 to R125): the run loop's action
once PH11 has found the class. The sub-code is carried in the record and never read. -/

namespace Sys2Proof.Machine

/-- K.NOTRAP (R122): the loop goes to its condition. -/
def execKNotrap (_sub : BitVec 6) (s : State) : Result := .next s.loopCondition

/-- K.SYSCALL (R123): PH12. -/
def execKSyscall (_sub : BitVec 6) (s : State) : Result := .next s.enterSyscall

/-- K.HALT (R124): the run ends with Halt. -/
def execKHalt (_sub : BitVec 6) (s : State) : Result := .next s.haltRun

/-- K.OTHER (R125): falls through, exactly as for NoTrap. -/
def execKOther (_sub : BitVec 6) (s : State) : Result := .next s.loopCondition

end Sys2Proof.Machine
end

