-- ==== Sys2Proof/Machine/Dispatch.lean ====
section
/-! DEFINITION. One arm per row of spec/opcode_table.json. -/

namespace Sys2Proof.Machine

def exec (i : Instr) (s : State) : Host.Outcome State Fault Refusal :=
  match i with
  | .construct logEnabled syscallsIgnored => Sys2Proof.Machine.execConstruct logEnabled syscallsIgnored s
  | .bindMemory handle => Sys2Proof.Machine.execBindMemory handle s
  | .init => Sys2Proof.Machine.execInit s
  | .step => Sys2Proof.Machine.execStep s
  | .run maxInstructions => Sys2Proof.Machine.execRun maxInstructions s
  | .kNotrap sub => Sys2Proof.Machine.execKNotrap sub s
  | .kSyscall sub => Sys2Proof.Machine.execKSyscall sub s
  | .kHalt sub => Sys2Proof.Machine.execKHalt sub s
  | .kOther sub => Sys2Proof.Machine.execKOther sub s
  | .npNonnop => Sys2Proof.Machine.execNpNonnop s
  | .npNop => Sys2Proof.Machine.execNpNop s
  | .phFetch => Sys2Proof.Machine.execPhFetch s
  | .phSeq => Sys2Proof.Machine.execPhSeq s
  | .phRead => Sys2Proof.Machine.execPhRead s
  | .phExec => Sys2Proof.Machine.execPhExec s
  | .phMem => Sys2Proof.Machine.execPhMem s
  | .phWb => Sys2Proof.Machine.execPhWb s
  | .phTrap => Sys2Proof.Machine.execPhTrap s
  | .phPc => Sys2Proof.Machine.execPhPc s
  | .phNop => Sys2Proof.Machine.execPhNop s
  | .phTrace => Sys2Proof.Machine.execPhTrace s
  | .phDispatch => Sys2Proof.Machine.execPhDispatch s
  | .phSyscall => Sys2Proof.Machine.execPhSyscall s

end Sys2Proof.Machine
end

