-- ==== Sys2Proof/Machine/Fetch.lean ====
section
/-! DEFINITION. What the sequencer does next (spec/40_host_commands.md R95): the phase in progress
while a command is in progress, else what the host presents; and how a word is put where the next
step takes it. -/

namespace Sys2Proof.Machine

/-- What a step finds to do. -/
inductive Fetched where
  /-- Quiescent with nothing presented: the sequencer waits. -/
  | nothing
  /-- A host event that names no instruction: the state after it. -/
  | event (s : State)
  /-- The instruction to run, and the state to run it in. -/
  | run (i : Instr) (s : State)
  /-- PHASE names no phase while a command is in progress. -/
  | noPhase

/-- Take one host event (R95, `20_memory.md` R63). A reserved opcode is refused with BAD_CMD
(`30_encoding.md` R79 a, R96). -/
def takeEvent (s : State) : HostEvent → Fetched
  | .command cw =>
    match decodeCommand cw with
    | some i => .run i s
    | none => .event (s.refuse .badCmd)
  | .poke m a b => .event { s with mem := s.mem.write m (s.cut a) b }
  | .setRegs r => .event { s with regs := r }
  | .setHandler w => .event { s with handler := w }

/-- What the next step does. -/
def fetchNext (s : State) : Fetched :=
  if quiescent s then
    match s.host with
    | [] => .nothing
    | e :: rest => takeEvent { s with host := rest } e
  else
    match s.phase with
    | some p => .run p.instr s
    | none => .noPhase

/-! ### Placing a word of the opcode table -/

/-- An instruction of no particular kind, for a slot that holds none. -/
def blankInsn : Insn :=
  { operands := [], sources := [], results := [], loaded := none, accessFault := none,
    noOp := 0, trapKind := 0, nextPc := 0, seqId := 0 }

/-- The instruction in the slot, or a blank one. -/
def slotOrBlank (s : State) : Insn := s.slot.getD blankInsn

/-- List an answer for the transaction of phase `p` as state `s` asks it, behind the answers already
listed, so that only a request nothing lists is affected (log entry 19). -/
def answerPhase (p : Phase) (s : State) (i : Insn) : Collab :=
  let c := s.collab
  match p with
  | .fetch => { c with fetch := c.fetch ++ [(fetchKey s, .answer i)] }
  | .read => { c with readSources := c.readSources ++ [(regKey s i, .answer [])] }
  | .exec => { c with execute := c.execute ++ [(i, .answer i)] }
  | .mem => { c with loadStore := c.loadStore ++ [(accessKey s i, .answer { stores := [], insn := i })] }
  | .wb => { c with writeDst := c.writeDst ++ [(regKey s i, .answer s.regs)] }
  | .trap => { c with checkTrap := c.checkTrap ++ [(i, .answer { kind := i.trapKind, nextPc := i.nextPc })] }
  | .syscall =>
    { c with syscall := c.syscall ++ [(handlerWorld s, .answer (handlerWorld s))] }
  | .seq | .pc | .nop | .trace | .dispatch => c

/-- The state of a command that has phase `p` in progress: a RUN for the run loop's phases, a STEP
(or the RUN already in progress) for the others. -/
def busyAt (p : Phase) (s : State) : RunState :=
  match p with
  | .trace | .dispatch | .syscall => .running
  | _ => if s.runState = .running then .running else .stepping

/-- Put phase `p` in progress on instruction `i`. -/
def placePhase (s : State) (p : Phase) (i : Insn) : State :=
  { s with runState := busyAt p s, phase := some p, slot := some i, collab := answerPhase p s i }

/-- Present a command word: the sequencer is quiescent and the word is the first thing presented. -/
def placeCommand (s : State) (cw : CommandWord) : State :=
  { s with
    runState := if s.runState = .fault then .fault else .idle,
    phase := none, host := .command cw :: s.host }

/-- Put a word of the opcode table where the next step takes it (log entry 19): a command word on
the command port; a phase code as the phase in progress; a no-op answer or a trap-kind code in the
instruction that PH9 or PH11 is about to ask. A phase code that names no phase places nothing. -/
def placeWord (s : State) (nbits w : Nat) : State :=
  match tableFormat nbits w with
  | .cmd => placeCommand s (BitVec.ofNat 67 w)
  | .np => placePhase s .nop { slotOrBlank s with noOp := BitVec.ofNat 1 w }
  | .tk => placePhase s .dispatch { slotOrBlank s with trapKind := BitVec.ofNat 8 w }
  | .ph =>
    match phaseOfCode w with
    | some p => placePhase s p (slotOrBlank s)
    | none => s

end Sys2Proof.Machine
end

