-- ==== Sys2Proof/Machine/Step.lean ====
section
/-! DEFINITION. One step: one phase of the command in progress, or one host event while quiescent. -/

namespace Sys2Proof.Machine

/-- The step. A quiescent sequencer to which nothing is presented waits (`60_exceptions.md` R157). -/
def step (s : State) : Host.Outcome State Fault Refusal :=
  match fetchNext s with
  | .nothing => .next s
  | .event s' => .next s'
  | .run i s' => exec i s'
  | .noPhase => .fault .noPhase

/-- `s` with the word placed where the next step takes it. -/
def State.withFetchWord (s : State) (nbits w : Nat) : State := placeWord s nbits w

end Sys2Proof.Machine
end

