-- ==== Sys2Proof/Safety.lean ====
section
/-! DEFINITION. What a good state is (spec/10_state.md R37, R27; spec/95_test_vectors.md V2.9), what a
step leaves alone, and the measure that bounds a command (spec/70_reset_and_hazards.md R167). -/

namespace Sys2Proof.Machine

/-- The phase in progress is one of PH1 to PH9, a phase of a step. -/
def inStep (p : Option Phase) : Bool :=
  match p with
  | some p => decide (p.code ≤ 9)
  | none => false

/-- The invariant of the sequencer: what holds at reset and after every step. -/
structure Invariant (s : State) : Prop where
  /-- ADDR_W >= 1 (`00_scope.md` R9). -/
  addrW_pos : 1 ≤ s.addrW
  /-- PC holds an ADDR_W-bit value (`10_state.md` R21). -/
  pc_fits : s.pc < 2 ^ s.addrW
  /-- The memory is in its canonical form. -/
  mem_wf : s.mem.wf
  /-- Every listed byte has an ADDR_W-bit address. -/
  mem_fits : ∀ c ∈ s.mem, keyAddress c.1 < 2 ^ s.addrW
  /-- R37 (c): NOPCNT never exceeds 11. -/
  nopcnt_le : s.nopcnt.toNat ≤ 11
  /-- R37 (c): NOPCNT is 11 only in FAULT with TERM = RUNAWAY. -/
  nopcnt_limit : s.nopcnt.toNat = 11 → s.runState = .fault ∧ s.term = .runaway
  /-- R37 (d): RUNCNT never exceeds RUNMAX. -/
  runcnt_le : s.runcnt.toNat ≤ s.runmax.toNat
  /-- R94: a step of a run is in progress only below the cap. -/
  run_room : s.runState = .running → inStep s.phase = true → s.runcnt.toNat < s.runmax.toNat
  /-- R27: PHASE is 0 exactly while quiescent. -/
  phase_quiescent : quiescent s = true ↔ s.phase = none
  /-- R93: a STEP has only phases of a step in progress. -/
  stepping_phase : s.runState = .stepping → inStep s.phase = true
  /-- R52, R96: a command in progress has a bound memory and a valid PC. -/
  busy_ready : quiescent s = false → s.memBound = true ∧ s.pcValid = true
  /-- V2.9: FAULT without a bound memory is impossible. -/
  fault_bound : s.runState = .fault → s.memBound = true
  /-- R26: a valid PC came from a bound memory. -/
  pcValid_bound : s.pcValid = true → s.memBound = true
  /-- R30: the slot holds an instruction from PH1 on. -/
  slot_held : ∀ p, s.phase = some p → p ≠ .fetch → s.slot.isSome = true
  /-- R147: FAULT is exactly an abnormal TERM. -/
  fault_term : s.runState = .fault ↔ (s.term = .runaway ∨ s.term = .collabFault)
  /-- R94: TERM is NONE while a RUN is in progress. -/
  running_term : s.runState = .running → s.term = .none
  /-- R27: FPHASE is set exactly while TERM = COLLAB_FAULT. -/
  fphase_term : s.fphase.isSome = true ↔ s.term = .collabFault

/-- The world W as the spec names it: every byte of memory, the register file, the handler's state. -/
def sameWorld (s t : State) : Prop :=
  (∀ h a, t.mem.read h a = s.mem.read h a) ∧ t.regs = s.regs ∧ t.handler = s.handler

/-- The machine's parameters and the collaborators' answers. -/
def sameMachine (s t : State) : Prop :=
  t.addrW = s.addrW ∧ t.variant = s.variant ∧ t.collab = s.collab

/-- The byte a list of stores leaves at an address: the last one that names it. -/
def storedByte (addrW : Nat) (stores : List Store) (a : Nat) : Option Byte :=
  (stores.reverse.find? (fun st => st.1 % 2 ^ addrW = a)).map (·.2)

/-- The transaction of phase `p` in state `s` (`30_encoding.md` R75); none for PH12 with syscalls
ignored (`42_trap_dispatch.md` R123). -/
def phaseRequest (s : State) : Phase → Option Request
  | .fetch => some (.fetch s.memsel s.pc)
  | .seq => some (.setSeqId s.seq)
  | .read => some .readSources
  | .exec => some .execute
  | .mem => some (.loadStore s.memsel)
  | .wb => some .writeDst
  | .trap => some .checkTrap
  | .pc => some .nextPc
  | .nop => some .isNoOp
  | .trace => some .traceEmit
  | .dispatch => some .trapKind
  | .syscall => if s.syscallsIgnored then none else some .syscallExecute

/-- The sequence ids handed out so far, oldest first. -/
def idsGiven (s : State) : List Word64 :=
  s.requests.filterMap fun r => match r with
    | .setSeqId id => some id
    | _ => none

/-- No CONSTRUCT is waiting on the command port. -/
def noConstructWaits (s : State) : Prop :=
  ∀ cw, HostEvent.command cw ∈ s.host → ∀ l g, decodeCommand cw ≠ some (.construct l g)

/-- A bound on the steps a command in progress still takes: the phases left of a STEP; in a RUN twelve
for each step the cap leaves, less those the step in progress has made, or with the phases left of the
step that has returned (R167). -/
def remaining (s : State) : Nat :=
  match s.phase with
  | none => 0
  | some p =>
    if s.runState = .running then
      12 * (s.runmax.toNat - s.runcnt.toNat) + (if p.code ≤ 9 then 1 else 13) - p.code
    else 10 - p.code

/-- A state with CFG.LOG_ENABLED and every copy of it in the trace set to 0. -/
def eraseLog (s : State) : State :=
  { s with logEnabled := false, trace := s.trace.map (fun e => { e with logEnabled := false }) }

/-- An outcome with its next state mapped. -/
def mapNext (f : State → State) : Result → Result
  | .next s => .next (f s)
  | .fault r => .fault r
  | .refused r => .refused r

end Sys2Proof.Machine
end

