-- ==== Sys2Proof/Certificates/Slice0/Obligations.lean ====
section
/-! DEFINITION. The statements for the provers, from the numbered rules of spec/. Each says for which
states an instruction completes, what it writes and that nothing else changes, or what holds of
every step. -/

open Sys2Proof Sys2Proof.Machine

/-- After reset: STATUS 0, CFG 0, the counters 0, no instruction in the slot (R38, R160, R161). -/
def Obligations.ResetIsThePowerOnState : Prop :=
  ∀ t, (t = State.reset ∨ exec (.construct false false) State.reset = .next t) →
    t.seq = 0 ∧ t.nopcnt = 0 ∧ t.runcnt = 0 ∧ t.runmax = 0 ∧ cfgWord t = 0 ∧ statusWord t = 0 ∧
      t.runState = .idle ∧ t.phase = none ∧ t.memBound = false ∧ t.pcValid = false ∧
      t.term = .none ∧ t.err = .ok ∧ t.fphase = none ∧ t.slot = none

/-- The invariant of the sequencer holds at reset (R37, R38). The model's reading in it: log entries
2, 6, 8. -/
def Obligations.ResetMeetsTheInvariant : Prop :=
  Invariant State.reset

/-- CONSTRUCT completes, sets CFG from its operands, zeroes the counters and STATUS, and touches no
collaborator (R90, R38, R24). The model's reading in it: log entries 1, 2, 14. -/
def Obligations.ConstructWritesEveryRegister : Prop :=
  ∀ (l g : Bool) (s : State), ∃ t, exec (.construct l g) s = .next t ∧
    t.logEnabled = l ∧ t.syscallsIgnored = g ∧
    cfgWord t = 0#30 ++ BitVec.ofBool g ++ BitVec.ofBool l ∧
    t.seq = 0 ∧ t.nopcnt = 0 ∧ t.runcnt = 0 ∧ t.runmax = 0 ∧ statusWord t = 0 ∧
    t.runState = .idle ∧ t.phase = none ∧ t.slot = none ∧ t.record = none ∧
    sameWorld s t ∧ sameMachine s t ∧
    t.trace = s.trace ∧ t.requests = s.requests ∧ t.host = s.host

/-- BIND_MEMORY writes MEMSEL, MEM_BOUND, PC_VALID and ERR, withdraws the retired record and leaves
everything else alone (R91, R97). The model's reading in it: log entry 14. -/
def Obligations.BindMemoryReplacesTheBinding : Prop :=
  ∀ (h : Handle) (s : State), exec (.bindMemory h) s =
    .next { s with memsel := h, memBound := true, pcValid := false, err := .ok, record := none }

/-- INIT with a memory bound sets PC to StartAddress(MEMSEL), zeroes NOPCNT, clears TERM, FPHASE, ERR
and the record; without one it is refused (R92, R96, R97). The model's reading in it: log entries
14, 21. -/
def Obligations.InitWritesPcFromStartAddress : Prop :=
  (∀ s : State, s.memBound = true → exec .init s = .next { s with
      pc := startAddressOf s, nopcnt := 0, pcValid := true, runState := .idle,
      term := .none, fphase := none, err := .ok, record := none,
      requests := s.requests ++ [.startAddress s.memsel] }) ∧
  (∀ s : State, s.memBound = false → exec .init s = .next { s with err := .noMem }) ∧
  (∀ s t u : State, s.memBound = true → exec .init s = .next t → exec .init t = .next u →
    u = { t with requests := t.requests ++ [.startAddress s.memsel] })

/-- STEP, accepted, puts PH1 in progress in state STEPPING (R93, R75). The model's reading in it: log
entry 14. -/
def Obligations.StepCommandStartsPhaseOne : Prop :=
  ∀ s : State, s.runState ≠ .fault → s.memBound = true → s.pcValid = true →
    exec .step s = .next { s with
      runState := .stepping, phase := some .fetch, err := .ok, record := none }

/-- RUN performs INIT's effects, loads RUNMAX and RUNCNT and starts PH1; RUN(0) ends at once with
NoTrap (R94, R131, R28). The model's reading in it: log entries 14, 21. -/
def Obligations.RunStartsWithInitAndTheCap : Prop :=
  ∀ (n : Word64) (s : State), s.memBound = true →
    exec (.run n) s = .next { s with
      pc := startAddressOf s, nopcnt := 0, pcValid := true, fphase := none, err := .ok,
      record := none, requests := s.requests ++ [.startAddress s.memsel],
      runmax := n, runcnt := 0,
      runState := if n = 0 then .idle else .running,
      phase := if n = 0 then none else some .fetch,
      term := if n = 0 then .notrap else .none }

/-- A refused command writes ERR with the first cause that applies and nothing else; an accepted one
writes ERR OK (R96). -/
def Obligations.RefusedCommandWritesOnlyErr : Prop :=
  (∀ s cw rest, quiescent s = true → s.host = .command cw :: rest → 5 ≤ (commandOp cw).toNat →
    step s = .next { s with host := rest, err := .badCmd }) ∧
  (∀ s : State, s.runState = .fault → exec .step s = .next { s with err := .inFault }) ∧
  (∀ s : State, s.runState ≠ .fault → s.memBound = false →
    exec .step s = .next { s with err := .noMem }) ∧
  (∀ s : State, s.memBound = false → exec .init s = .next { s with err := .noMem }) ∧
  (∀ (s : State) n, s.memBound = false → exec (.run n) s = .next { s with err := .noMem }) ∧
  (∀ s : State, s.runState ≠ .fault → s.memBound = true → s.pcValid = false →
    exec .step s = .next { s with err := .noInit }) ∧
  (∀ i s t, i.format = .cmd → exec i s = .next t →
    t.err = .ok ∨ ∃ e, e ≠ .ok ∧ t = { s with err := e })

/-- PH.FETCH asks Fetch(MEMSEL, PC) and puts the answer in the slot (R101, R61). The model's reading
in it: log entry 14. -/
def Obligations.FetchPutsAFreshInstructionInTheSlot : Prop :=
  ∀ s i, answerFetch s = .answer i → exec .phFetch s = .next { s with
    slot := some i, record := none, phase := some .seq,
    requests := s.requests ++ [.fetch s.memsel s.pc] }

/-- PH.SEQ gives the instruction the old SEQ and adds one modulo 2^64 (R102, R22, R112). -/
def Obligations.SeqAssignsTheOldIdAndIncrements : Prop :=
  ∀ s i, s.slot = some i → ∃ t, exec .phSeq s = .next t ∧
    t.seq.toNat = (s.seq.toNat + 1) % 2 ^ 64 ∧
    t = { s with slot := some { i with seqId := s.seq }, seq := t.seq, phase := some .read,
                 requests := s.requests ++ [.setSeqId s.seq] }

/-- PH.READ writes the source operands, PH.EXEC the instruction's own state; neither touches a
register, the memory or the register file (R103, R104, R12). The model's reading in it: log entry
10. -/
def Obligations.ReadAndExecuteChangeOnlyTheInstruction : Prop :=
  (∀ s i v, s.slot = some i → answerReadSources s i = .answer v → exec .phRead s = .next { s with
    slot := some { i with sources := v }, phase := some .exec,
    requests := s.requests ++ [.readSources] }) ∧
  (∀ s i i', s.slot = some i → answerExecute s i = .answer i' → exec .phExec s = .next { s with
    slot := some { i' with seqId := i.seqId }, phase := some .mem,
    requests := s.requests ++ [.execute] })

/-- PH.MEM changes exactly the bytes of the bound memory that LoadStore's answer stores (R105, R51,
R12). The model's reading in it: log entries 10, 21. -/
def Obligations.LoadStoreWritesExactlyTheAnsweredBytes : Prop :=
  ∀ s i a, s.slot = some i → answerLoadStore s i = .answer a → ∃ t, exec .phMem s = .next t ∧
    (∀ h x, t.mem.read h x =
      if h = s.memsel then (storedByte s.addrW a.stores x).or (s.mem.read h x)
      else s.mem.read h x) ∧
    (a.stores = [] → t.mem = s.mem) ∧
    t = { s with mem := t.mem, slot := some { a.insn with seqId := i.seqId }, phase := some .wb,
                 requests := s.requests ++ [.loadStore s.memsel] }

/-- PH.WB replaces the register file by WriteDst's answer and changes no other state of the world
(R106, R12). -/
def Obligations.WriteBackCommitsTheRegisterFile : Prop :=
  ∀ s i r, s.slot = some i → answerWriteDst s i = .answer r →
    exec .phWb s = .next { s with
      regs := r, phase := some .trap, requests := s.requests ++ [.writeDst] } ∧
    ∀ t, exec .phWb s = .next t → ∀ h x, t.mem.read h x = s.mem.read h x

/-- PH.TRAP writes the instruction's classification and acts on nothing (R107, R12). The model's
reading in it: log entry 11. -/
def Obligations.CheckTrapClassifiesWithoutActing : Prop :=
  ∀ s i a, s.slot = some i → answerCheckTrap s i = .answer a → exec .phTrap s = .next { s with
    slot := some { i with trapKind := a.kind, nextPc := a.nextPc }, phase := some .pc,
    requests := s.requests ++ [.checkTrap] }

/-- PH.PC writes PC with the instruction's next-PC, cut only by the port's width (R108, R21). The
model's reading in it: log entries 11, 21. -/
def Obligations.PcPhaseStoresNextPcUnchanged : Prop :=
  ∀ s i, s.slot = some i → ∃ t, exec .phPc s = .next t ∧
    t.pc = i.nextPc % 2 ^ s.addrW ∧ (i.nextPc < 2 ^ s.addrW → t.pc = i.nextPc) ∧
    t = { s with pc := t.pc, phase := some .nop, requests := s.requests ++ [.nextPc] }

/-- PH.NOP below the limit counts or zeroes NOPCNT and returns the instruction: a STEP is complete, a
RUN goes on to PH10 (R109, R111, R127, R128, R77). The model's reading in it: log entries 11, 14,
15. -/
def Obligations.NopPhaseReturnsTheInstruction : Prop :=
  ∀ s i, s.slot = some i → (i.noOp = 1#1 → s.nopcnt.toNat < 10) →
    exec .phNop s = .next { s with
      nopcnt := if i.noOp = 1#1 then s.nopcnt + 1 else 0,
      record := some { seqId := i.seqId, nextPc := s.pc, tk := i.trapKind, np := i.noOp },
      runState := if s.runState = .running then .running else .idle,
      runcnt := if s.runState = .running then s.runcnt + 1 else s.runcnt,
      phase := if s.runState = .running then some .trace else none,
      requests := s.requests ++ [.isNoOp] }

/-- NP.NONNOP zeroes NOPCNT, NP.NOP increments it; below the limit the step returns (R127, R128,
R111). The model's reading in it: log entries 4, 11, 14, 15. -/
def Obligations.ProgressClassesUpdateTheCounter : Prop :=
  ∀ s : State,
    let returned (n : BitVec 32) : State := { s with
      nopcnt := n,
      record := s.slot.map fun i =>
        { seqId := i.seqId, nextPc := s.pc, tk := i.trapKind, np := i.noOp },
      runState := if s.runState = .running then .running else .idle,
      runcnt := if s.runState = .running then s.runcnt + 1 else s.runcnt,
      phase := if s.runState = .running then some .trace else none }
    exec .npNonnop s = .next (returned 0) ∧
    (s.nopcnt.toNat < 10 → exec .npNop s = .next (returned (s.nopcnt + 1)))

/-- A no-op that takes NOPCNT above 10 raises RunawayExecution, whatever its trap class, with nothing
undone (R129, R147, R109, R130). The model's reading in it: log entries 4, 11, 14. -/
def Obligations.EleventhNoOpRaisesRunaway : Prop :=
  (∀ s : State, s.nopcnt = 10 → exec .npNop s = .next { s with
    nopcnt := 11, term := .runaway, fphase := none, runState := .fault, phase := none,
    record := none }) ∧
  (∀ s i, s.nopcnt = 10 → s.slot = some i → i.noOp = 1#1 → exec .phNop s = .next { s with
    nopcnt := 11, term := .runaway, fphase := none, runState := .fault, phase := none,
    record := none, requests := s.requests ++ [.isNoOp] }) ∧
  (∀ s : State, s.nopcnt = 9 → ∃ t, exec .npNop s = .next t ∧ t.nopcnt = 10 ∧
    t.term = s.term ∧ t.runState ≠ .fault)

/-- From PH1, nine steps perform PH1 to PH9 in the order of StepPhases, each on the instruction the
one before left; the step returns, or faults at PH9 (R100, R101, R102, R103, R104, R105, R106,
R107, R108, R109, R111, R129). The model's reading in it: log entries 3, 10, 11, 14, 15, 21. -/
def Obligations.NineStepPhasesRunInOrder : Prop :=
  ∀ (s : State) (i₀ : Insn) (v : List Nat) (i₁ : Insn) (a : AccessAnswer) (r : RegFile)
    (c : TrapAnswer),
    quiescent s = false → s.phase = some .fetch →
    answerFetch s = .answer i₀ →
    answerReadSources s { i₀ with seqId := s.seq } = .answer v →
    answerExecute s { i₀ with seqId := s.seq, sources := v } = .answer i₁ →
    answerLoadStore s { i₁ with seqId := s.seq } = .answer a →
    answerWriteDst s { a.insn with seqId := s.seq } = .answer r →
    answerCheckTrap s { a.insn with seqId := s.seq } = .answer c →
    let atNop : State := { s with
      slot := some { a.insn with seqId := s.seq, trapKind := c.kind, nextPc := c.nextPc },
      seq := s.seq + 1, mem := s.mem.storeAll s.memsel s.addrW a.stores, regs := r,
      pc := c.nextPc % 2 ^ s.addrW, record := none, phase := some .nop,
      requests := s.requests ++ [.fetch s.memsel s.pc, .setSeqId s.seq, .readSources, .execute,
        .loadStore s.memsel, .writeDst, .checkTrap, .nextPc] }
    Host.Core.run Sys2Proof.core 8 s = .next atNop ∧
    ((a.insn.noOp = 1#1 → s.nopcnt.toNat < 10) →
      Host.Core.run Sys2Proof.core 9 s = .next { atNop with
        nopcnt := if a.insn.noOp = 1#1 then s.nopcnt + 1 else 0,
        record := some { seqId := s.seq, nextPc := c.nextPc % 2 ^ s.addrW, tk := c.kind,
                         np := a.insn.noOp },
        runState := if s.runState = .running then .running else .idle,
        runcnt := if s.runState = .running then s.runcnt + 1 else s.runcnt,
        phase := if s.runState = .running then some .trace else none,
        requests := atNop.requests ++ [.isNoOp] }) ∧
    (a.insn.noOp = 1#1 → s.nopcnt = 10 →
      Host.Core.run Sys2Proof.core 9 s = .next { atNop with
        nopcnt := 11, term := .runaway, fphase := none, runState := .fault, phase := none,
        requests := atNop.requests ++ [.isNoOp] })

/-- An abort answer in PH1, 3, 4, 5, 6, 7 or 12 enters FAULT with FPHASE the phase, undoing nothing
(R110, R147, R141). The model's reading in it: log entries 10, 11, 12, 14, 21. -/
def Obligations.AbortTakesTheFaultOfItsPhase : Prop :=
  (∀ s, answerFetch s = .abort () →
    exec .phFetch s = .next { s with
      term := .collabFault, fphase := some .fetch, runState := .fault, phase := none,
      record := none, requests := s.requests ++ [.fetch s.memsel s.pc] }) ∧
  (∀ s i left, s.slot = some i → answerReadSources s i = .abort left →
    exec .phRead s = .next { s with
      slot := some { i with sources := left },
      term := .collabFault, fphase := some .read, runState := .fault, phase := none,
      record := none, requests := s.requests ++ [.readSources] }) ∧
  (∀ s i left, s.slot = some i → answerExecute s i = .abort left →
    exec .phExec s = .next { s with
      slot := some { left with seqId := i.seqId },
      term := .collabFault, fphase := some .exec, runState := .fault, phase := none,
      record := none, requests := s.requests ++ [.execute] }) ∧
  (∀ s i left, s.slot = some i → answerLoadStore s i = .abort left →
    ∃ t, exec .phMem s = .next t ∧
      (∀ h x, t.mem.read h x =
        if h = s.memsel then (storedByte s.addrW left.stores x).or (s.mem.read h x)
        else s.mem.read h x) ∧
      t = { s with
        mem := t.mem, slot := some { left.insn with seqId := i.seqId },
        term := .collabFault, fphase := some .mem, runState := .fault, phase := none,
        record := none, requests := s.requests ++ [.loadStore s.memsel] }) ∧
  (∀ s i left, s.slot = some i → answerWriteDst s i = .abort left →
    exec .phWb s = .next { s with
      regs := left, term := .collabFault, fphase := some .wb, runState := .fault, phase := none,
      record := none, requests := s.requests ++ [.writeDst] }) ∧
  (∀ s i left, s.slot = some i → answerCheckTrap s i = .abort left →
    exec .phTrap s = .next { s with
      slot := some { i with trapKind := left.kind, nextPc := left.nextPc },
      term := .collabFault, fphase := some .trap, runState := .fault, phase := none,
      record := none, requests := s.requests ++ [.checkTrap] }) ∧
  (∀ s left, s.syscallsIgnored = false → answerSyscall s = .abort left →
    exec .phSyscall s = .next { s with
      regs := left.regs, handler := left.handler,
      term := .collabFault, fphase := some .syscall, runState := .fault, phase := none,
      record := none, requests := s.requests ++ [.syscallExecute] })

/-- A collaborator that never answers leaves the sequencer stuck: no next state (R169). The model's
reading in it: log entry 5. -/
def Obligations.SilentCollaboratorLeavesNoStep : Prop :=
  (∀ s, answerFetch s = .silent → exec .phFetch s = .fault (.noAnswer .fetch)) ∧
  (∀ s i, s.slot = some i →
    (answerReadSources s i = .silent → exec .phRead s = .fault (.noAnswer .read)) ∧
    (answerExecute s i = .silent → exec .phExec s = .fault (.noAnswer .exec)) ∧
    (answerLoadStore s i = .silent → exec .phMem s = .fault (.noAnswer .mem)) ∧
    (answerWriteDst s i = .silent → exec .phWb s = .fault (.noAnswer .wb)) ∧
    (answerCheckTrap s i = .silent → exec .phTrap s = .fault (.noAnswer .trap))) ∧
  (∀ s, s.syscallsIgnored = false → answerSyscall s = .silent →
    exec .phSyscall s = .fault (.noAnswer .syscall))

/-- raise X writes TERM, FPHASE, STATE and PHASE, withdraws the record and does nothing more (R147).
The model's reading in it: log entry 14. -/
def Obligations.FaultEntryWritesOnlyStatus : Prop :=
  (∀ s : State, s.faultEntry .runaway = { s with
    term := .runaway, fphase := none, runState := .fault, phase := none, record := none }) ∧
  (∀ (s : State) p, s.faultEntry (.collab p) = { s with
    term := .collabFault, fphase := some p, runState := .fault, phase := none, record := none })

/-- PH.TRACE appends one entry with the record and LOG_ENABLED, unconditionally (R121, R77). The
model's reading in it: log entries 11, 22. -/
def Obligations.TraceEmitsEveryReturnedInstruction : Prop :=
  ∀ s i, s.slot = some i → exec .phTrace s = .next { s with
    trace := s.trace ++ [{
      record := { seqId := i.seqId, nextPc := s.pc, tk := i.trapKind, np := i.noOp },
      logEnabled := s.logEnabled, text := textOf s i }],
    phase := some .dispatch, requests := s.requests ++ [.traceEmit] }

/-- K.NOTRAP and K.OTHER continue below the cap and end the run with NoTrap at it (R122, R125, R131,
R126). The model's reading in it: log entry 4. -/
def Obligations.NoTrapAndOtherGoToTheLoopCondition : Prop :=
  ∀ (sub : BitVec 6) (s : State),
    (s.runcnt.toNat < s.runmax.toNat →
      exec (.kNotrap sub) s = .next { s with phase := some .fetch } ∧
      exec (.kOther sub) s = .next { s with phase := some .fetch }) ∧
    (s.runmax.toNat ≤ s.runcnt.toNat →
      exec (.kNotrap sub) s = .next { s with term := .notrap, runState := .idle, phase := none } ∧
      exec (.kOther sub) s = .next { s with term := .notrap, runState := .idle, phase := none })

/-- K.HALT ends the run with TERM HALT, even at the cap; K.SYSCALL goes to PH12 (R124, R123, R126,
R146). The model's reading in it: log entry 4. -/
def Obligations.HaltEndsTheRunAndSyscallEntersTheHandlerPhase : Prop :=
  ∀ (sub : BitVec 6) (s : State),
    exec (.kHalt sub) s = .next { s with term := .halt, runState := .idle, phase := none } ∧
    exec (.kSyscall sub) s = .next { s with phase := some .syscall }

/-- PH.DISPATCH asks TrapKind and does what the row of tk[7:6] does; the sub-code is never read (R120,
R73, R126). The model's reading in it: log entries 4, 11. -/
def Obligations.DispatchRunsTheClassOfTheTrapKind : Prop :=
  (∀ s i, s.slot = some i → ∃ t, exec .phDispatch s = .next t ∧
    exec (decodeTrap i.trapKind) { s with requests := s.requests ++ [.trapKind] } = .next t) ∧
  (∀ (s : State) (tk tk' : TrapCode), trapClass tk = trapClass tk' →
    exec (decodeTrap tk) s = exec (decodeTrap tk') s)

/-- PH.SYSCALL makes one handler transaction if syscalls are not ignored and none otherwise; the run
goes on either way (R123, R51). The model's reading in it: log entry 13. -/
def Obligations.SyscallPhaseAsksTheHandlerOnceIfEnabled : Prop :=
  ∀ s : State,
    let continued (u : State) : State := { u with
      phase := if s.runcnt.toNat < s.runmax.toNat then some .fetch else none,
      runState := if s.runcnt.toNat < s.runmax.toNat then s.runState else .idle,
      term := if s.runcnt.toNat < s.runmax.toNat then s.term else .notrap }
    (s.syscallsIgnored = true → exec .phSyscall s = .next (continued s)) ∧
    (∀ w, s.syscallsIgnored = false → answerSyscall s = .answer w →
      exec .phSyscall s = .next (continued { s with
        regs := w.regs, handler := w.handler, requests := s.requests ++ [.syscallExecute] }))

/-- A RUN ends within twelve phases for each step the cap leaves, and three for a step already
returned; a STEP within nine; or a collaborator is silent (R167, R94, R93, R144). The model's
reading in it: log entries 3, 5. -/
def Obligations.CommandInProgressEndsWithinTheBound : Prop :=
  ∀ s p, Invariant s → quiescent s = false → s.phase = some p → ∃ k, k ≤ remaining s ∧
    (s.runState = .stepping → remaining s = 10 - p.code) ∧
    (s.runState = .running → p.code ≤ 9 →
      remaining s = 12 * (s.runmax.toNat - s.runcnt.toNat) + 1 - p.code) ∧
    (s.runState = .running → 10 ≤ p.code →
      remaining s = 12 * (s.runmax.toNat - s.runcnt.toNat) + 13 - p.code) ∧
    match Host.Core.run Sys2Proof.core k s with
    | .next t => quiescent t = true
    | .fault r => ∃ p, r = .noAnswer p
    | .refused _ => False

/-- A step runs the phase in progress, or the command word the host presents to a quiescent sequencer
(R95, R75, R100). The model's reading in it: log entries 3, 17. -/
def Obligations.StepRunsTheInstructionItFinds : Prop :=
  (∀ s p, quiescent s = false → s.phase = some p →
    step s = exec p.instr s ∧ decode .ph p.code = some p.instr) ∧
  (∀ s cw rest i, quiescent s = true → s.host = .command cw :: rest → decodeCommand cw = some i →
    step s = exec i { s with host := rest }) ∧
  (∀ s, quiescent s = true → s.host = [] → step s = .next s)

/-- At PHASE 9 a step runs the NP row of IsNoOp's answer, at PHASE 11 the TK row of TrapKind's answer
(R74, R109, R120). The model's reading in it: log entries 4, 11. -/
def Obligations.GuardAndDispatchStepsRunTheAnswerRows : Prop :=
  ∀ s i, quiescent s = false → s.slot = some i →
    (s.phase = some .nop →
      step s = exec (decodeNoOp i.noOp) { s with requests := s.requests ++ [.isNoOp] }) ∧
    (s.phase = some .dispatch →
      step s = exec (decodeTrap i.trapKind) { s with requests := s.requests ++ [.trapKind] })

/-- While quiescent the host may write a byte of a memory, the register file or what else the handler
touches; nothing else changes (R63, R165, R12). The model's reading in it: log entries 9, 17, 21. -/
def Obligations.HostChangesAreSeenBetweenCommands : Prop :=
  (∀ s m a b rest, quiescent s = true → s.host = .poke m a b :: rest → ∃ t, step s = .next t ∧
    (∀ h x, t.mem.read h x =
      if h = m ∧ x = a % 2 ^ s.addrW then some b else s.mem.read h x) ∧
    t = { s with host := rest, mem := t.mem }) ∧
  (∀ s r rest, quiescent s = true → s.host = .setRegs r :: rest →
    step s = .next { s with host := rest, regs := r }) ∧
  (∀ s w rest, quiescent s = true → s.host = .setHandler w :: rest →
    step s = .next { s with host := rest, handler := w })

/-- Every step from a state that meets the invariant leads to one that meets it (R37, R21, R23, R27,
R26, R30). The model's reading in it: log entries 9, 21. -/
def Obligations.EveryStepKeepsTheInvariant : Prop :=
  ∀ s t, Invariant s → step s = .next t → Invariant t

/-- From a state that meets the invariant a step stops only on a collaborator that never answers (R30,
R27, R141). The model's reading in it: log entries 5, 20. -/
def Obligations.ReachableStatesNeverMissSlotOrPhase : Prop :=
  ∀ s, Invariant s → (∃ t, step s = .next t) ∨ ∃ p, step s = .fault (.noAnswer p)

/-- PC changes only by INIT or RUN, to the start address, by PH.PC, to the next-PC, and by CONSTRUCT
(R21, R108, R148). The model's reading in it: log entries 6, 11, 21. -/
def Obligations.PcIsWrittenOnlyByInitAndPcPhase : Prop :=
  ∀ i s t, exec i s = .next t → t.pc = s.pc ∨
    ((i = .init ∨ ∃ n, i = .run n) ∧ t.pc = startAddressOf s) ∨
    (i = .phPc ∧ ∃ k, s.slot = some k ∧ t.pc = k.nextPc % 2 ^ s.addrW) ∨
    (∃ l g, i = .construct l g)

/-- SEQ is incremented by PH.SEQ, zeroed by CONSTRUCT and written by nothing else (R22, R39, R112). -/
def Obligations.SeqIsWrittenOnlyBySeqPhaseAndConstruct : Prop :=
  ∀ i s t, exec i s = .next t →
    (i = .phSeq ∧ t.seq = s.seq + 1) ∨ ((∃ l g, i = .construct l g) ∧ t.seq = 0) ∨
    (i ≠ .phSeq ∧ (∀ l g, i ≠ .construct l g) ∧ t.seq = s.seq)

/-- NOPCNT is written by INIT, RUN, CONSTRUCT (0) and PH9 or its rows, and by nothing else (R23,
R109). -/
def Obligations.NopcntIsWrittenOnlyByInitGuardAndConstruct : Prop :=
  ∀ i s t, exec i s = .next t → t.nopcnt = s.nopcnt ∨
    (t.nopcnt = 0 ∧ (i = .init ∨ (∃ n, i = .run n) ∨ (∃ l g, i = .construct l g) ∨
      i = .phNop ∨ i = .npNonnop)) ∨
    (t.nopcnt = s.nopcnt + 1 ∧ (i = .phNop ∨ i = .npNop))

/-- CFG is written by CONSTRUCT only, MEMSEL, MEM_BOUND by it and BIND_MEMORY, PC_VALID by these, INIT
and RUN; parameters and answer tables by nothing (R24, R25, R26, R113, R9, R12). The model's
reading in it: log entries 1, 2. -/
def Obligations.ConfigurationAndBindingAreWrittenOnlyByTheirCommands : Prop :=
  ∀ i s t, exec i s = .next t →
    ((∀ l g, i ≠ .construct l g) → cfgWord t = cfgWord s) ∧
    ((∀ l g, i ≠ .construct l g) → (∀ h, i ≠ .bindMemory h) →
      t.memsel = s.memsel ∧ t.memBound = s.memBound) ∧
    ((∀ l g, i ≠ .construct l g) → (∀ h, i ≠ .bindMemory h) → i ≠ .init → (∀ n, i ≠ .run n) →
      t.pcValid = s.pcValid) ∧
    sameMachine s t

/-- RUNMAX is written by RUN and CONSTRUCT; RUNCNT by these and, plus one, when a step of a RUN
returns (R28, R132). -/
def Obligations.RunCountersAreWrittenOnlyByRunAndReturn : Prop :=
  ∀ i s t, exec i s = .next t →
    (t.runmax = s.runmax ∨ (∃ n, i = .run n ∧ t.runmax = n) ∨
      ∃ l g, i = .construct l g ∧ t.runmax = 0) ∧
    (t.runcnt = s.runcnt ∨
      (t.runcnt = 0 ∧ ((∃ n, i = .run n) ∨ ∃ l g, i = .construct l g)) ∨
      (t.runcnt = s.runcnt + 1 ∧ s.runState = .running ∧ t.runState = .running ∧
        (i = .phNop ∨ i = .npNop ∨ i = .npNonnop)))

/-- No instruction but PH.MEM changes a byte of any memory, and PH.MEM only bytes of the bound memory
(R51, R58, R123). The model's reading in it: log entry 13. -/
def Obligations.MemoryIsWrittenOnlyByTheMemoryPhase : Prop :=
  ∀ i s t, exec i s = .next t → ∀ h x,
    (i ≠ .phMem ∨ h ≠ s.memsel) → t.mem.read h x = s.mem.read h x

/-- The register file changes only by PH.WB and by PH.SYSCALL with syscalls enabled (R32, R104, R105).
The model's reading in it: log entry 13. -/
def Obligations.RegisterFileIsWrittenOnlyByWriteBackAndHandler : Prop :=
  ∀ i s t, exec i s = .next t →
    (i ≠ .phWb → (i ≠ .phSyscall ∨ s.syscallsIgnored = true) → t.regs = s.regs) ∧
    ((i ≠ .phSyscall ∨ s.syscallsIgnored = true) → t.handler = s.handler)

/-- The trace grows by one entry in PH.TRACE and changes in no other instruction (R121, R93, R113).
The model's reading in it: log entries 11, 22. -/
def Obligations.TraceGrowsOnlyInTheTracePhase : Prop :=
  ∀ i s t, exec i s = .next t →
    (i = .phTrace ∧ ∃ k e, s.slot = some k ∧ t.trace = s.trace ++ [e] ∧
      e.record.seqId = k.seqId ∧ e.record.tk = k.trapKind ∧ e.record.np = k.noOp ∧
      e.record.nextPc = s.pc ∧ e.logEnabled = s.logEnabled) ∨
    (i ≠ .phTrace ∧ t.trace = s.trace)

/-- While a command is in progress each step makes exactly the transaction of its phase, and takes
nothing from the host (R75, R51, R56, R58). The model's reading in it: log entries 16, 17. -/
def Obligations.EachPhaseMakesItsOneTransaction : Prop :=
  ∀ s t, step s = .next t →
    (∀ p, quiescent s = false → s.phase = some p →
      t.requests = s.requests ++ (phaseRequest s p).toList ∧ t.host = s.host) ∧
    (quiescent s = true →
      t.requests = s.requests ∨ t.requests = s.requests ++ [.startAddress s.memsel])

/-- State FAULT is left only by INIT, RUN or CONSTRUCT (R150). The model's reading in it: log entry
17. -/
def Obligations.FaultIsLeftOnlyByInitRunAndConstruct : Prop :=
  ∀ s t, step s = .next t → s.runState = .fault → t.runState ≠ .fault →
    ∃ cw rest i, s.host = .command cw :: rest ∧ decodeCommand cw = some i ∧
      (i = .init ∨ (∃ n, i = .run n) ∨ ∃ l g, i = .construct l g)

/-- In FAULT exactly INIT and RUN with a memory bound, and CONSTRUCT, lead to another STATE; STEP is
refused, BIND_MEMORY stays in FAULT (R150). -/
def Obligations.CommandsThatLeaveFault : Prop :=
  ∀ s : State, s.runState = .fault →
    (∀ i t, i.format = .cmd → exec i s = .next t →
      (t.runState ≠ .fault ↔ (∃ l g, i = .construct l g) ∨
        (s.memBound = true ∧ (i = .init ∨ ∃ n, i = .run n)))) ∧
    exec .step s = .next { s with err := .inFault } ∧
    (∀ h, ∃ t, exec (.bindMemory h) s = .next t ∧ t.runState = .fault ∧ t.err = .ok)

/-- FAULT is entered only from a command in progress, by RunawayExecution in PH9 or an abort in an
aborting phase (R141, R147, R140). The model's reading in it: log entry 14. -/
def Obligations.FaultIsEnteredOnlyByRunawayOrAbort : Prop :=
  ∀ s t, step s = .next t → s.runState ≠ .fault → t.runState = .fault →
    quiescent s = false ∧ t.phase = none ∧ t.record = none ∧
    ((s.phase = some .nop ∧ 10 < t.nopcnt.toNat ∧ t.term = .runaway ∧ t.fphase = none) ∨
     ∃ p, s.phase = some p ∧ p ∈ [Phase.fetch, .read, .exec, .mem, .wb, .trap, .syscall] ∧
       t.term = .collabFault ∧ t.fphase = some p)

/-- Along every run without a CONSTRUCT the ids handed out are consecutive and SEQ counts them (R102,
R37, R22). The model's reading in it: log entries 10, 17. -/
def Obligations.SequenceIdsHaveNoGapsOrRepeats : Prop :=
  ∀ k s t, noConstructWaits s → Host.Core.run Sys2Proof.core k s = .next t →
    ∃ n : Nat, idsGiven t = idsGiven s ++
        (List.range n).map (fun j => s.seq + BitVec.ofNat 64 j) ∧
      t.seq = s.seq + BitVec.ofNat 64 n

/-- CFG.LOG_ENABLED influences nothing but the side-band bit in the trace (R24, R121). -/
def Obligations.LogEnabledHasNoEffectInside : Prop :=
  ∀ (s : State) (b : Bool),
    mapNext eraseLog (step { s with logEnabled := b }) = mapNext eraseLog (step s)

/-- VARIANT influences a step only through a collaborator's answer (R9, R84, R2). The model's reading
in it: log entries 1, 2. -/
def Obligations.VariantIsNeverReadBySequencer : Prop :=
  ∀ (s : State) (v : Config.Variant),
    let s' : State := { s with variant := v }
    startAddressOf s' = startAddressOf s →
    answerFetch s' = answerFetch s → answerSyscall s' = answerSyscall s →
    (∀ i, s.slot = some i → answerReadSources s' i = answerReadSources s i ∧
      answerExecute s' i = answerExecute s i ∧ answerLoadStore s' i = answerLoadStore s i ∧
      answerWriteDst s' i = answerWriteDst s i ∧ answerCheckTrap s' i = answerCheckTrap s i ∧
      textOf s' i = textOf s i) →
    step s' = mapNext (fun t => { t with variant := v }) (step s)

/-- The STATUS and CFG words hold each field at its bits and read 0 elsewhere (R27, R24, R76). -/
def Obligations.StatusAndConfigurationLayout : Prop :=
  (∀ s : State,
    (statusWord s).extractLsb' 0 4 = stateCode s.runState ∧
    (statusWord s).extractLsb' 4 4 = phaseCode s.phase ∧
    (statusWord s).getLsbD 8 = s.memBound ∧ (statusWord s).getLsbD 9 = s.pcValid ∧
    (statusWord s).extractLsb' 10 3 = termCode s.term ∧
    (statusWord s).extractLsb' 13 3 = errCode s.err ∧
    (statusWord s).extractLsb' 16 4 = phaseCode s.fphase ∧
    (statusWord s).extractLsb' 20 12 = 0 ∧
    (cfgWord s).getLsbD 0 = s.logEnabled ∧ (cfgWord s).getLsbD 1 = s.syscallsIgnored ∧
    (cfgWord s).extractLsb' 2 30 = 0) ∧
  [RunState.idle, .stepping, .running, .fault].map stateCode = [0, 1, 2, 3] ∧
  [Term.none, .notrap, .halt, .runaway, .collabFault].map termCode = [0, 1, 2, 3, 4] ∧
  [Err.ok, .badCmd, .noMem, .noInit, .inFault].map errCode = [0, 1, 2, 3, 4] ∧
  phaseCode none = 0 ∧ ∀ p : Phase, phaseCode (some p) = BitVec.ofNat 4 p.code

/-- A host read of register 0 to 7 gives the register's value while quiescent, and is not allowed
otherwise (R29, R97). The model's reading in it: log entry 17. -/
def Obligations.HostReadsRegistersByNumberWhileQuiescent : Prop :=
  (∀ s, quiescent s = true →
    (List.range 8).map (hostRead s) = [some s.pc, some s.seq.toNat, some s.nopcnt.toNat,
      some (cfgWord s).toNat, some (statusWord s).toNat, some s.memsel.toNat,
      some s.runcnt.toNat, some s.runmax.toNat]) ∧
  (∀ s n, 8 ≤ n → hostRead s n = none) ∧
  (∀ s n, quiescent s = false → hostRead s n = none)

/-- Decoding the word of an instruction gives the instruction back, for every instruction and operand
(R71, R72, R73, R74, R75). -/
def Obligations.DecodeInvertsEncode : Prop :=
  ∀ i : Instr, decode i.format (encode i) = some i

/-- A word decodes exactly if it fits its format and selects a row: opcodes 0 to 4, phase codes 1 to
12, every TK and NP word (R78, R79, R80, R81). -/
def Obligations.DecodeAcceptsExactlyTheWellFormedWords : Prop :=
  (∀ f w, (decode f w).isSome = wellFormedWord f w) ∧
  (∀ f w i, decode f w = some i → i.format = f)

/-- A word that decodes matches exactly one row of the opcode table, the row of the instruction it
decodes to (R78, R71, R73, R74, R75). -/
def Obligations.DecodedInstructionIsTheOneRowItsWordMatches : Prop :=
  ∀ f w i, decode f w = some i →
    (opcodeTable.filter (fun r => r.hits f w)).map Row.mnemonic = [i.mnemonic]

/-- Operands stand as they are in arg, and the bits a command does not use reach nothing (R72). -/
def Obligations.UnusedArgumentBitsAreIgnored : Prop :=
  ∀ arg : Word64,
    decodeCommand (commandWord 0#3 arg) = some (.construct (arg.getLsbD 0) (arg.getLsbD 1)) ∧
    decodeCommand (commandWord 1#3 arg) = some (.bindMemory arg) ∧
    decodeCommand (commandWord 2#3 arg) = some .init ∧
    decodeCommand (commandWord 3#3 arg) = some .step ∧
    decodeCommand (commandWord 4#3 arg) = some (.run arg) ∧
    decodeCommand (commandWord 5#3 arg) = none ∧
    decodeCommand (commandWord 6#3 arg) = none ∧
    decodeCommand (commandWord 7#3 arg) = none ∧
    ∀ s : State,
      (∃ t, exec (.construct (arg.getLsbD 0) (arg.getLsbD 1)) s = .next t ∧
        t.logEnabled = arg.getLsbD 0 ∧ t.syscallsIgnored = arg.getLsbD 1) ∧
      (∃ t, exec (.bindMemory arg) s = .next t ∧ t.memsel = arg) ∧
      (s.memBound = true → ∃ t, exec (.run arg) s = .next t ∧ t.runmax = arg ∧
        (arg = 0 → t.runState = .idle ∧ t.phase = none ∧ t.runcnt = 0))

/-- Words of the spec's examples decode to the instructions they stand for (R71, R73, R74, R75). -/
def Obligations.SpecWordsDecodeAsTheSpecSays : Prop :=
  decode .cmd 0x4000000000000000A = some (.run 10) ∧
  decode .cmd 0x0FFFFFFFFFFFFFFFE = some (.construct false true) ∧
  decode .cmd 0x10000000000000001 = some (.bindMemory 1) ∧
  decode .cmd 0x60000000000000123 = none ∧
  decode .tk 0x3F = some (.kNotrap 0x3F) ∧ decode .tk 0x7F = some (.kSyscall 0x3F) ∧
  decode .tk 0xBF = some (.kHalt 0x3F) ∧ decode .tk 0xC5 = some (.kOther 5) ∧
  decode .np 0 = some .npNonnop ∧ decode .np 1 = some .npNop ∧
  decode .ph 0xC = some .phSyscall ∧ decode .ph 0x9 = some .phNop ∧ decode .ph 0xD = none
end

