-- ==== Sys2Proof/Laws/Memory.lean ====
section
/-! SUPPORT. The laws of the memory's cells: what a read after a write gives, and that every operation
keeps the canonical form. -/

namespace Sys2Proof.Machine

/-- A key names one address of one memory. -/
theorem cellKey_inj {h h' : Handle} {a a' : Nat} :
    cellKey h a = cellKey h' a' ↔ h = h' ∧ a = a' := by
  unfold cellKey
  constructor
  · intro e
    have := h.isLt
    have := h'.isLt
    refine ⟨BitVec.eq_of_toNat_eq ?_, ?_⟩ <;> omega
  · rintro ⟨rfl, rfl⟩
    rfl

@[simp] theorem keyAddress_cellKey (h : Handle) (a : Nat) : keyAddress (cellKey h a) = a := by
  unfold keyAddress cellKey
  have := h.isLt
  omega

@[simp] theorem keyHandle_cellKey (h : Handle) (a : Nat) : keyHandle (cellKey h a) = h := by
  apply BitVec.eq_of_toNat_eq
  have := h.isLt
  simp only [keyHandle, cellKey, BitVec.toNat_ofNat]
  omega

@[simp] theorem Memory.find_put_same (m : Memory) (k : Nat) (b : Byte) :
    (Memory.put m k b).find k = some b := by
  induction m with
  | nil => simp [Memory.put, Memory.find]
  | cons c rest ih =>
    obtain ⟨k', c'⟩ := c
    unfold Memory.put
    split
    · simp [Memory.find]
    · split
      · simp [Memory.find]
      · next h₁ h₂ => simp [Memory.find, Ne.symm h₂, ih]

theorem Memory.find_put_other (m : Memory) {k k' : Nat} (b : Byte) (hne : k' ≠ k) :
    (Memory.put m k b).find k' = m.find k' := by
  induction m with
  | nil => simp [Memory.put, Memory.find, Ne.symm hne]
  | cons c rest ih =>
    obtain ⟨kc, c'⟩ := c
    unfold Memory.put
    split
    · simp [Memory.find, Ne.symm hne]
    · split
      · next h₁ h₂ => subst h₂; simp [Memory.find, Ne.symm hne]
      · simp only [Memory.find, ih]

/-- A write gives its byte to its own address and leaves every other address of every memory alone. -/
theorem Memory.read_write (m : Memory) (h h' : Handle) (a a' : Nat) (b : Byte) :
    (m.write h a b).read h' a' = if h' = h ∧ a' = a then some b else m.read h' a' := by
  unfold Memory.read Memory.write
  split
  · next e => obtain ⟨rfl, rfl⟩ := e; simp
  · next e => exact Memory.find_put_other m b (fun hk => e (cellKey_inj.mp hk))

theorem Memory.mem_put (m : Memory) (k : Nat) (b : Byte) :
    ∀ c ∈ Memory.put m k b, c = (k, b) ∨ c ∈ m := by
  induction m with
  | nil => simp [Memory.put]
  | cons d rest ih =>
    obtain ⟨kd, bd⟩ := d
    unfold Memory.put
    split
    · simp
    · split
      · intro c hc
        rcases List.mem_cons.mp hc with h | h
        · exact .inl h
        · exact .inr (List.mem_cons_of_mem _ h)
      · intro c hc
        rcases List.mem_cons.mp hc with h | h
        · exact .inr (by simp [h])
        · exact (ih c h).imp id (List.mem_cons_of_mem _)

theorem Memory.put_wf {m : Memory} (k : Nat) (b : Byte) (hm : m.wf) : (Memory.put m k b).wf := by
  induction m with
  | nil => simp [Memory.put]
  | cons d rest ih =>
    obtain ⟨kd, bd⟩ := d
    obtain ⟨hd, hr⟩ := List.pairwise_cons.mp hm
    unfold Memory.put
    split
    · next h =>
      refine List.pairwise_cons.mpr ⟨?_, hm⟩
      intro c hc
      rcases List.mem_cons.mp hc with rfl | hc
      · exact h
      · exact Nat.lt_trans h (hd c hc)
    · split
      · next h => exact List.pairwise_cons.mpr ⟨fun c hc => h ▸ hd c hc, hr⟩
      · next h₁ h₂ =>
        refine List.pairwise_cons.mpr ⟨?_, ih hr⟩
        intro c hc
        rcases Memory.mem_put rest k b c hc with rfl | hc
        · show kd < k
          omega
        · exact hd c hc

theorem Memory.write_wf {m : Memory} (h : Handle) (a : Nat) (b : Byte) (hm : m.wf) :
    (m.write h a b).wf :=
  Memory.put_wf _ _ hm

/-- What a written memory lists: the byte written, or a byte it listed before. -/
theorem Memory.mem_write {m : Memory} {h : Handle} {a : Nat} {b : Byte} :
    ∀ c ∈ m.write h a b, keyAddress c.1 = a ∨ c ∈ m := by
  intro c hc
  rcases Memory.mem_put m _ _ c hc with rfl | hc
  · exact .inl (keyAddress_cellKey h a)
  · exact .inr hc

@[simp] theorem Memory.storeAll_nil (m : Memory) (h : Handle) (w : Nat) : m.storeAll h w [] = m := rfl

@[simp] theorem Memory.storeAll_cons (m : Memory) (h : Handle) (w : Nat) (st : Store)
    (rest : List Store) :
    m.storeAll h w (st :: rest) = (m.write h (st.1 % 2 ^ w) st.2).storeAll h w rest := rfl

/-- `LoadStore`'s stores keep the canonical form. -/
theorem Memory.storeAll_wf {m : Memory} (h : Handle) (w : Nat) (stores : List Store) (hm : m.wf) :
    (m.storeAll h w stores).wf := by
  induction stores generalizing m with
  | nil => exact hm
  | cons st rest ih => exact ih (Memory.write_wf _ _ _ hm)

/-- `LoadStore`'s stores stay inside the address space. -/
theorem Memory.storeAll_fits {m : Memory} (h : Handle) (w : Nat) (stores : List Store)
    (hm : ∀ c ∈ m, keyAddress c.1 < 2 ^ w) :
    ∀ c ∈ m.storeAll h w stores, keyAddress c.1 < 2 ^ w := by
  induction stores generalizing m with
  | nil => exact hm
  | cons st rest ih =>
    refine ih (fun c hc => ?_)
    rcases Memory.mem_write c hc with hc | hc
    · exact hc ▸ Nat.mod_lt _ (Nat.two_pow_pos w)
    · exact hm c hc

theorem storedByte_cons (w : Nat) (st : Store) (rest : List Store) (a : Nat) :
    storedByte w (st :: rest) a =
      (storedByte w rest a).or (if st.1 % 2 ^ w = a then some st.2 else none) := by
  unfold storedByte
  simp only [List.reverse_cons, List.find?_append]
  cases List.find? (fun st => decide (st.1 % 2 ^ w = a)) rest.reverse with
  | some x => simp
  | none =>
    by_cases h : st.1 % 2 ^ w = a <;> simp [h]

/-- A list of stores gives an address the last byte that names it, and leaves every other address of
the memory, and every other memory, alone. -/
theorem Memory.read_storeAll (m : Memory) (h h' : Handle) (w : Nat) (stores : List Store)
    (a : Nat) :
    (m.storeAll h w stores).read h' a =
      if h' = h then (storedByte w stores a).or (m.read h' a) else m.read h' a := by
  induction stores generalizing m with
  | nil => simp [storedByte]
  | cons st rest ih =>
    rw [Memory.storeAll_cons, ih, storedByte_cons, Memory.read_write]
    by_cases hh : h' = h
    · by_cases ha : st.1 % 2 ^ w = a
      · cases storedByte w rest a <;> simp [hh, ha]
      · cases storedByte w rest a <;> simp [hh, ha, Ne.symm ha]
    · simp [hh]

end Sys2Proof.Machine
end

