-- ==== Sys2Proof/Laws/State.lean ====
section
/-! SUPPORT. One lemma per field per shared update, tagged for the simplifier, so that no later proof
unfolds a record update. -/

namespace Sys2Proof.Machine

/-! #### `ask` -/

@[simp] theorem State.ask_addrW (s : State) (r : Request) : (s.ask r).addrW = s.addrW := rfl
@[simp] theorem State.ask_variant (s : State) (r : Request) : (s.ask r).variant = s.variant := rfl
@[simp] theorem State.ask_pc (s : State) (r : Request) : (s.ask r).pc = s.pc := rfl
@[simp] theorem State.ask_seq (s : State) (r : Request) : (s.ask r).seq = s.seq := rfl
@[simp] theorem State.ask_nopcnt (s : State) (r : Request) : (s.ask r).nopcnt = s.nopcnt := rfl
@[simp] theorem State.ask_logEnabled (s : State) (r : Request) : (s.ask r).logEnabled = s.logEnabled := rfl
@[simp] theorem State.ask_syscallsIgnored (s : State) (r : Request) : (s.ask r).syscallsIgnored = s.syscallsIgnored := rfl
@[simp] theorem State.ask_memBound (s : State) (r : Request) : (s.ask r).memBound = s.memBound := rfl
@[simp] theorem State.ask_memsel (s : State) (r : Request) : (s.ask r).memsel = s.memsel := rfl
@[simp] theorem State.ask_pcValid (s : State) (r : Request) : (s.ask r).pcValid = s.pcValid := rfl
@[simp] theorem State.ask_runState (s : State) (r : Request) : (s.ask r).runState = s.runState := rfl
@[simp] theorem State.ask_phase (s : State) (r : Request) : (s.ask r).phase = s.phase := rfl
@[simp] theorem State.ask_term (s : State) (r : Request) : (s.ask r).term = s.term := rfl
@[simp] theorem State.ask_err (s : State) (r : Request) : (s.ask r).err = s.err := rfl
@[simp] theorem State.ask_fphase (s : State) (r : Request) : (s.ask r).fphase = s.fphase := rfl
@[simp] theorem State.ask_runcnt (s : State) (r : Request) : (s.ask r).runcnt = s.runcnt := rfl
@[simp] theorem State.ask_runmax (s : State) (r : Request) : (s.ask r).runmax = s.runmax := rfl
@[simp] theorem State.ask_slot (s : State) (r : Request) : (s.ask r).slot = s.slot := rfl
@[simp] theorem State.ask_record (s : State) (r : Request) : (s.ask r).record = s.record := rfl
@[simp] theorem State.ask_mem (s : State) (r : Request) : (s.ask r).mem = s.mem := rfl
@[simp] theorem State.ask_regs (s : State) (r : Request) : (s.ask r).regs = s.regs := rfl
@[simp] theorem State.ask_handler (s : State) (r : Request) : (s.ask r).handler = s.handler := rfl
@[simp] theorem State.ask_trace (s : State) (r : Request) : (s.ask r).trace = s.trace := rfl
@[simp] theorem State.ask_host (s : State) (r : Request) : (s.ask r).host = s.host := rfl
@[simp] theorem State.ask_requests (s : State) (r : Request) : (s.ask r).requests = s.requests ++ [r] := rfl
@[simp] theorem State.ask_collab (s : State) (r : Request) : (s.ask r).collab = s.collab := rfl
@[simp] theorem State.ask_free (s : State) (r : Request) : (s.ask r).free = s.free := rfl

/-! #### `refuse` -/

@[simp] theorem State.refuse_addrW (s : State) (e : Err) : (s.refuse e).addrW = s.addrW := rfl
@[simp] theorem State.refuse_variant (s : State) (e : Err) : (s.refuse e).variant = s.variant := rfl
@[simp] theorem State.refuse_pc (s : State) (e : Err) : (s.refuse e).pc = s.pc := rfl
@[simp] theorem State.refuse_seq (s : State) (e : Err) : (s.refuse e).seq = s.seq := rfl
@[simp] theorem State.refuse_nopcnt (s : State) (e : Err) : (s.refuse e).nopcnt = s.nopcnt := rfl
@[simp] theorem State.refuse_logEnabled (s : State) (e : Err) : (s.refuse e).logEnabled = s.logEnabled := rfl
@[simp] theorem State.refuse_syscallsIgnored (s : State) (e : Err) : (s.refuse e).syscallsIgnored = s.syscallsIgnored := rfl
@[simp] theorem State.refuse_memBound (s : State) (e : Err) : (s.refuse e).memBound = s.memBound := rfl
@[simp] theorem State.refuse_memsel (s : State) (e : Err) : (s.refuse e).memsel = s.memsel := rfl
@[simp] theorem State.refuse_pcValid (s : State) (e : Err) : (s.refuse e).pcValid = s.pcValid := rfl
@[simp] theorem State.refuse_runState (s : State) (e : Err) : (s.refuse e).runState = s.runState := rfl
@[simp] theorem State.refuse_phase (s : State) (e : Err) : (s.refuse e).phase = s.phase := rfl
@[simp] theorem State.refuse_term (s : State) (e : Err) : (s.refuse e).term = s.term := rfl
@[simp] theorem State.refuse_err (s : State) (e : Err) : (s.refuse e).err = e := rfl
@[simp] theorem State.refuse_fphase (s : State) (e : Err) : (s.refuse e).fphase = s.fphase := rfl
@[simp] theorem State.refuse_runcnt (s : State) (e : Err) : (s.refuse e).runcnt = s.runcnt := rfl
@[simp] theorem State.refuse_runmax (s : State) (e : Err) : (s.refuse e).runmax = s.runmax := rfl
@[simp] theorem State.refuse_slot (s : State) (e : Err) : (s.refuse e).slot = s.slot := rfl
@[simp] theorem State.refuse_record (s : State) (e : Err) : (s.refuse e).record = s.record := rfl
@[simp] theorem State.refuse_mem (s : State) (e : Err) : (s.refuse e).mem = s.mem := rfl
@[simp] theorem State.refuse_regs (s : State) (e : Err) : (s.refuse e).regs = s.regs := rfl
@[simp] theorem State.refuse_handler (s : State) (e : Err) : (s.refuse e).handler = s.handler := rfl
@[simp] theorem State.refuse_trace (s : State) (e : Err) : (s.refuse e).trace = s.trace := rfl
@[simp] theorem State.refuse_host (s : State) (e : Err) : (s.refuse e).host = s.host := rfl
@[simp] theorem State.refuse_requests (s : State) (e : Err) : (s.refuse e).requests = s.requests := rfl
@[simp] theorem State.refuse_collab (s : State) (e : Err) : (s.refuse e).collab = s.collab := rfl
@[simp] theorem State.refuse_free (s : State) (e : Err) : (s.refuse e).free = s.free := rfl

/-! #### `faultEntry` -/

@[simp] theorem State.faultEntry_addrW (s : State) (c : FaultCause) : (s.faultEntry c).addrW = s.addrW := rfl
@[simp] theorem State.faultEntry_variant (s : State) (c : FaultCause) : (s.faultEntry c).variant = s.variant := rfl
@[simp] theorem State.faultEntry_pc (s : State) (c : FaultCause) : (s.faultEntry c).pc = s.pc := rfl
@[simp] theorem State.faultEntry_seq (s : State) (c : FaultCause) : (s.faultEntry c).seq = s.seq := rfl
@[simp] theorem State.faultEntry_nopcnt (s : State) (c : FaultCause) : (s.faultEntry c).nopcnt = s.nopcnt := rfl
@[simp] theorem State.faultEntry_logEnabled (s : State) (c : FaultCause) : (s.faultEntry c).logEnabled = s.logEnabled := rfl
@[simp] theorem State.faultEntry_syscallsIgnored (s : State) (c : FaultCause) : (s.faultEntry c).syscallsIgnored = s.syscallsIgnored := rfl
@[simp] theorem State.faultEntry_memBound (s : State) (c : FaultCause) : (s.faultEntry c).memBound = s.memBound := rfl
@[simp] theorem State.faultEntry_memsel (s : State) (c : FaultCause) : (s.faultEntry c).memsel = s.memsel := rfl
@[simp] theorem State.faultEntry_pcValid (s : State) (c : FaultCause) : (s.faultEntry c).pcValid = s.pcValid := rfl
@[simp] theorem State.faultEntry_runState (s : State) (c : FaultCause) : (s.faultEntry c).runState = .fault := rfl
@[simp] theorem State.faultEntry_phase (s : State) (c : FaultCause) : (s.faultEntry c).phase = none := rfl
@[simp] theorem State.faultEntry_term (s : State) (c : FaultCause) : (s.faultEntry c).term = c.term := rfl
@[simp] theorem State.faultEntry_err (s : State) (c : FaultCause) : (s.faultEntry c).err = s.err := rfl
@[simp] theorem State.faultEntry_fphase (s : State) (c : FaultCause) : (s.faultEntry c).fphase = c.fphase := rfl
@[simp] theorem State.faultEntry_runcnt (s : State) (c : FaultCause) : (s.faultEntry c).runcnt = s.runcnt := rfl
@[simp] theorem State.faultEntry_runmax (s : State) (c : FaultCause) : (s.faultEntry c).runmax = s.runmax := rfl
@[simp] theorem State.faultEntry_slot (s : State) (c : FaultCause) : (s.faultEntry c).slot = s.slot := rfl
@[simp] theorem State.faultEntry_record (s : State) (c : FaultCause) : (s.faultEntry c).record = none := rfl
@[simp] theorem State.faultEntry_mem (s : State) (c : FaultCause) : (s.faultEntry c).mem = s.mem := rfl
@[simp] theorem State.faultEntry_regs (s : State) (c : FaultCause) : (s.faultEntry c).regs = s.regs := rfl
@[simp] theorem State.faultEntry_handler (s : State) (c : FaultCause) : (s.faultEntry c).handler = s.handler := rfl
@[simp] theorem State.faultEntry_trace (s : State) (c : FaultCause) : (s.faultEntry c).trace = s.trace := rfl
@[simp] theorem State.faultEntry_host (s : State) (c : FaultCause) : (s.faultEntry c).host = s.host := rfl
@[simp] theorem State.faultEntry_requests (s : State) (c : FaultCause) : (s.faultEntry c).requests = s.requests := rfl
@[simp] theorem State.faultEntry_collab (s : State) (c : FaultCause) : (s.faultEntry c).collab = s.collab := rfl
@[simp] theorem State.faultEntry_free (s : State) (c : FaultCause) : (s.faultEntry c).free = s.free := rfl

/-! #### `initEffects` -/

@[simp] theorem State.initEffects_addrW (s : State) (rs : RunState) : (s.initEffects rs).addrW = s.addrW := rfl
@[simp] theorem State.initEffects_variant (s : State) (rs : RunState) : (s.initEffects rs).variant = s.variant := rfl
@[simp] theorem State.initEffects_pc (s : State) (rs : RunState) : (s.initEffects rs).pc = startAddressOf s := rfl
@[simp] theorem State.initEffects_seq (s : State) (rs : RunState) : (s.initEffects rs).seq = s.seq := rfl
@[simp] theorem State.initEffects_nopcnt (s : State) (rs : RunState) : (s.initEffects rs).nopcnt = 0 := rfl
@[simp] theorem State.initEffects_logEnabled (s : State) (rs : RunState) : (s.initEffects rs).logEnabled = s.logEnabled := rfl
@[simp] theorem State.initEffects_syscallsIgnored (s : State) (rs : RunState) : (s.initEffects rs).syscallsIgnored = s.syscallsIgnored := rfl
@[simp] theorem State.initEffects_memBound (s : State) (rs : RunState) : (s.initEffects rs).memBound = s.memBound := rfl
@[simp] theorem State.initEffects_memsel (s : State) (rs : RunState) : (s.initEffects rs).memsel = s.memsel := rfl
@[simp] theorem State.initEffects_pcValid (s : State) (rs : RunState) : (s.initEffects rs).pcValid = true := rfl
@[simp] theorem State.initEffects_runState (s : State) (rs : RunState) : (s.initEffects rs).runState = rs := rfl
@[simp] theorem State.initEffects_phase (s : State) (rs : RunState) : (s.initEffects rs).phase = s.phase := rfl
@[simp] theorem State.initEffects_term (s : State) (rs : RunState) : (s.initEffects rs).term = .none := rfl
@[simp] theorem State.initEffects_err (s : State) (rs : RunState) : (s.initEffects rs).err = .ok := rfl
@[simp] theorem State.initEffects_fphase (s : State) (rs : RunState) : (s.initEffects rs).fphase = none := rfl
@[simp] theorem State.initEffects_runcnt (s : State) (rs : RunState) : (s.initEffects rs).runcnt = s.runcnt := rfl
@[simp] theorem State.initEffects_runmax (s : State) (rs : RunState) : (s.initEffects rs).runmax = s.runmax := rfl
@[simp] theorem State.initEffects_slot (s : State) (rs : RunState) : (s.initEffects rs).slot = s.slot := rfl
@[simp] theorem State.initEffects_record (s : State) (rs : RunState) : (s.initEffects rs).record = none := rfl
@[simp] theorem State.initEffects_mem (s : State) (rs : RunState) : (s.initEffects rs).mem = s.mem := rfl
@[simp] theorem State.initEffects_regs (s : State) (rs : RunState) : (s.initEffects rs).regs = s.regs := rfl
@[simp] theorem State.initEffects_handler (s : State) (rs : RunState) : (s.initEffects rs).handler = s.handler := rfl
@[simp] theorem State.initEffects_trace (s : State) (rs : RunState) : (s.initEffects rs).trace = s.trace := rfl
@[simp] theorem State.initEffects_host (s : State) (rs : RunState) : (s.initEffects rs).host = s.host := rfl
@[simp] theorem State.initEffects_requests (s : State) (rs : RunState) : (s.initEffects rs).requests = s.requests ++ [.startAddress s.memsel] := rfl
@[simp] theorem State.initEffects_collab (s : State) (rs : RunState) : (s.initEffects rs).collab = s.collab := rfl
@[simp] theorem State.initEffects_free (s : State) (rs : RunState) : (s.initEffects rs).free = s.free := rfl

/-! #### `construct` -/

@[simp] theorem State.construct_addrW (s : State) (l g : Bool) : (s.construct l g).addrW = s.addrW := rfl
@[simp] theorem State.construct_variant (s : State) (l g : Bool) : (s.construct l g).variant = s.variant := rfl
@[simp] theorem State.construct_pc (s : State) (l g : Bool) : (s.construct l g).pc = s.cut (Config.unspecifiedPc s.free) := rfl
@[simp] theorem State.construct_seq (s : State) (l g : Bool) : (s.construct l g).seq = 0 := rfl
@[simp] theorem State.construct_nopcnt (s : State) (l g : Bool) : (s.construct l g).nopcnt = 0 := rfl
@[simp] theorem State.construct_logEnabled (s : State) (l g : Bool) : (s.construct l g).logEnabled = l := rfl
@[simp] theorem State.construct_syscallsIgnored (s : State) (l g : Bool) : (s.construct l g).syscallsIgnored = g := rfl
@[simp] theorem State.construct_memBound (s : State) (l g : Bool) : (s.construct l g).memBound = false := rfl
@[simp] theorem State.construct_memsel (s : State) (l g : Bool) : (s.construct l g).memsel = Config.unspecifiedMemsel s.free := rfl
@[simp] theorem State.construct_pcValid (s : State) (l g : Bool) : (s.construct l g).pcValid = false := rfl
@[simp] theorem State.construct_runState (s : State) (l g : Bool) : (s.construct l g).runState = .idle := rfl
@[simp] theorem State.construct_phase (s : State) (l g : Bool) : (s.construct l g).phase = none := rfl
@[simp] theorem State.construct_term (s : State) (l g : Bool) : (s.construct l g).term = .none := rfl
@[simp] theorem State.construct_err (s : State) (l g : Bool) : (s.construct l g).err = .ok := rfl
@[simp] theorem State.construct_fphase (s : State) (l g : Bool) : (s.construct l g).fphase = none := rfl
@[simp] theorem State.construct_runcnt (s : State) (l g : Bool) : (s.construct l g).runcnt = 0 := rfl
@[simp] theorem State.construct_runmax (s : State) (l g : Bool) : (s.construct l g).runmax = 0 := rfl
@[simp] theorem State.construct_slot (s : State) (l g : Bool) : (s.construct l g).slot = none := rfl
@[simp] theorem State.construct_record (s : State) (l g : Bool) : (s.construct l g).record = none := rfl
@[simp] theorem State.construct_mem (s : State) (l g : Bool) : (s.construct l g).mem = s.mem := rfl
@[simp] theorem State.construct_regs (s : State) (l g : Bool) : (s.construct l g).regs = s.regs := rfl
@[simp] theorem State.construct_handler (s : State) (l g : Bool) : (s.construct l g).handler = s.handler := rfl
@[simp] theorem State.construct_trace (s : State) (l g : Bool) : (s.construct l g).trace = s.trace := rfl
@[simp] theorem State.construct_host (s : State) (l g : Bool) : (s.construct l g).host = s.host := rfl
@[simp] theorem State.construct_requests (s : State) (l g : Bool) : (s.construct l g).requests = s.requests := rfl
@[simp] theorem State.construct_collab (s : State) (l g : Bool) : (s.construct l g).collab = s.collab := rfl
@[simp] theorem State.construct_free (s : State) (l g : Bool) : (s.construct l g).free = s.free + 1 := rfl

/-! #### `enterSyscall` -/

@[simp] theorem State.enterSyscall_addrW (s : State) : (s.enterSyscall).addrW = s.addrW := rfl
@[simp] theorem State.enterSyscall_variant (s : State) : (s.enterSyscall).variant = s.variant := rfl
@[simp] theorem State.enterSyscall_pc (s : State) : (s.enterSyscall).pc = s.pc := rfl
@[simp] theorem State.enterSyscall_seq (s : State) : (s.enterSyscall).seq = s.seq := rfl
@[simp] theorem State.enterSyscall_nopcnt (s : State) : (s.enterSyscall).nopcnt = s.nopcnt := rfl
@[simp] theorem State.enterSyscall_logEnabled (s : State) : (s.enterSyscall).logEnabled = s.logEnabled := rfl
@[simp] theorem State.enterSyscall_syscallsIgnored (s : State) : (s.enterSyscall).syscallsIgnored = s.syscallsIgnored := rfl
@[simp] theorem State.enterSyscall_memBound (s : State) : (s.enterSyscall).memBound = s.memBound := rfl
@[simp] theorem State.enterSyscall_memsel (s : State) : (s.enterSyscall).memsel = s.memsel := rfl
@[simp] theorem State.enterSyscall_pcValid (s : State) : (s.enterSyscall).pcValid = s.pcValid := rfl
@[simp] theorem State.enterSyscall_runState (s : State) : (s.enterSyscall).runState = s.runState := rfl
@[simp] theorem State.enterSyscall_phase (s : State) : (s.enterSyscall).phase = some .syscall := rfl
@[simp] theorem State.enterSyscall_term (s : State) : (s.enterSyscall).term = s.term := rfl
@[simp] theorem State.enterSyscall_err (s : State) : (s.enterSyscall).err = s.err := rfl
@[simp] theorem State.enterSyscall_fphase (s : State) : (s.enterSyscall).fphase = s.fphase := rfl
@[simp] theorem State.enterSyscall_runcnt (s : State) : (s.enterSyscall).runcnt = s.runcnt := rfl
@[simp] theorem State.enterSyscall_runmax (s : State) : (s.enterSyscall).runmax = s.runmax := rfl
@[simp] theorem State.enterSyscall_slot (s : State) : (s.enterSyscall).slot = s.slot := rfl
@[simp] theorem State.enterSyscall_record (s : State) : (s.enterSyscall).record = s.record := rfl
@[simp] theorem State.enterSyscall_mem (s : State) : (s.enterSyscall).mem = s.mem := rfl
@[simp] theorem State.enterSyscall_regs (s : State) : (s.enterSyscall).regs = s.regs := rfl
@[simp] theorem State.enterSyscall_handler (s : State) : (s.enterSyscall).handler = s.handler := rfl
@[simp] theorem State.enterSyscall_trace (s : State) : (s.enterSyscall).trace = s.trace := rfl
@[simp] theorem State.enterSyscall_host (s : State) : (s.enterSyscall).host = s.host := rfl
@[simp] theorem State.enterSyscall_requests (s : State) : (s.enterSyscall).requests = s.requests := rfl
@[simp] theorem State.enterSyscall_collab (s : State) : (s.enterSyscall).collab = s.collab := rfl
@[simp] theorem State.enterSyscall_free (s : State) : (s.enterSyscall).free = s.free := rfl

/-! #### `haltRun` -/

@[simp] theorem State.haltRun_addrW (s : State) : (s.haltRun).addrW = s.addrW := rfl
@[simp] theorem State.haltRun_variant (s : State) : (s.haltRun).variant = s.variant := rfl
@[simp] theorem State.haltRun_pc (s : State) : (s.haltRun).pc = s.pc := rfl
@[simp] theorem State.haltRun_seq (s : State) : (s.haltRun).seq = s.seq := rfl
@[simp] theorem State.haltRun_nopcnt (s : State) : (s.haltRun).nopcnt = s.nopcnt := rfl
@[simp] theorem State.haltRun_logEnabled (s : State) : (s.haltRun).logEnabled = s.logEnabled := rfl
@[simp] theorem State.haltRun_syscallsIgnored (s : State) : (s.haltRun).syscallsIgnored = s.syscallsIgnored := rfl
@[simp] theorem State.haltRun_memBound (s : State) : (s.haltRun).memBound = s.memBound := rfl
@[simp] theorem State.haltRun_memsel (s : State) : (s.haltRun).memsel = s.memsel := rfl
@[simp] theorem State.haltRun_pcValid (s : State) : (s.haltRun).pcValid = s.pcValid := rfl
@[simp] theorem State.haltRun_runState (s : State) : (s.haltRun).runState = .idle := rfl
@[simp] theorem State.haltRun_phase (s : State) : (s.haltRun).phase = none := rfl
@[simp] theorem State.haltRun_term (s : State) : (s.haltRun).term = .halt := rfl
@[simp] theorem State.haltRun_err (s : State) : (s.haltRun).err = s.err := rfl
@[simp] theorem State.haltRun_fphase (s : State) : (s.haltRun).fphase = s.fphase := rfl
@[simp] theorem State.haltRun_runcnt (s : State) : (s.haltRun).runcnt = s.runcnt := rfl
@[simp] theorem State.haltRun_runmax (s : State) : (s.haltRun).runmax = s.runmax := rfl
@[simp] theorem State.haltRun_slot (s : State) : (s.haltRun).slot = s.slot := rfl
@[simp] theorem State.haltRun_record (s : State) : (s.haltRun).record = s.record := rfl
@[simp] theorem State.haltRun_mem (s : State) : (s.haltRun).mem = s.mem := rfl
@[simp] theorem State.haltRun_regs (s : State) : (s.haltRun).regs = s.regs := rfl
@[simp] theorem State.haltRun_handler (s : State) : (s.haltRun).handler = s.handler := rfl
@[simp] theorem State.haltRun_trace (s : State) : (s.haltRun).trace = s.trace := rfl
@[simp] theorem State.haltRun_host (s : State) : (s.haltRun).host = s.host := rfl
@[simp] theorem State.haltRun_requests (s : State) : (s.haltRun).requests = s.requests := rfl
@[simp] theorem State.haltRun_collab (s : State) : (s.haltRun).collab = s.collab := rfl
@[simp] theorem State.haltRun_free (s : State) : (s.haltRun).free = s.free := rfl

/-! #### `loopCondition` -/

@[simp] theorem State.loopCondition_addrW (s : State) : (s.loopCondition).addrW = s.addrW :=
  by unfold State.loopCondition; split <;> rfl
@[simp] theorem State.loopCondition_variant (s : State) : (s.loopCondition).variant = s.variant :=
  by unfold State.loopCondition; split <;> rfl
@[simp] theorem State.loopCondition_pc (s : State) : (s.loopCondition).pc = s.pc :=
  by unfold State.loopCondition; split <;> rfl
@[simp] theorem State.loopCondition_seq (s : State) : (s.loopCondition).seq = s.seq :=
  by unfold State.loopCondition; split <;> rfl
@[simp] theorem State.loopCondition_nopcnt (s : State) : (s.loopCondition).nopcnt = s.nopcnt :=
  by unfold State.loopCondition; split <;> rfl
@[simp] theorem State.loopCondition_logEnabled (s : State) : (s.loopCondition).logEnabled = s.logEnabled :=
  by unfold State.loopCondition; split <;> rfl
@[simp] theorem State.loopCondition_syscallsIgnored (s : State) : (s.loopCondition).syscallsIgnored = s.syscallsIgnored :=
  by unfold State.loopCondition; split <;> rfl
@[simp] theorem State.loopCondition_memBound (s : State) : (s.loopCondition).memBound = s.memBound :=
  by unfold State.loopCondition; split <;> rfl
@[simp] theorem State.loopCondition_memsel (s : State) : (s.loopCondition).memsel = s.memsel :=
  by unfold State.loopCondition; split <;> rfl
@[simp] theorem State.loopCondition_pcValid (s : State) : (s.loopCondition).pcValid = s.pcValid :=
  by unfold State.loopCondition; split <;> rfl
@[simp] theorem State.loopCondition_err (s : State) : (s.loopCondition).err = s.err :=
  by unfold State.loopCondition; split <;> rfl
@[simp] theorem State.loopCondition_fphase (s : State) : (s.loopCondition).fphase = s.fphase :=
  by unfold State.loopCondition; split <;> rfl
@[simp] theorem State.loopCondition_runcnt (s : State) : (s.loopCondition).runcnt = s.runcnt :=
  by unfold State.loopCondition; split <;> rfl
@[simp] theorem State.loopCondition_runmax (s : State) : (s.loopCondition).runmax = s.runmax :=
  by unfold State.loopCondition; split <;> rfl
@[simp] theorem State.loopCondition_slot (s : State) : (s.loopCondition).slot = s.slot :=
  by unfold State.loopCondition; split <;> rfl
@[simp] theorem State.loopCondition_record (s : State) : (s.loopCondition).record = s.record :=
  by unfold State.loopCondition; split <;> rfl
@[simp] theorem State.loopCondition_mem (s : State) : (s.loopCondition).mem = s.mem :=
  by unfold State.loopCondition; split <;> rfl
@[simp] theorem State.loopCondition_regs (s : State) : (s.loopCondition).regs = s.regs :=
  by unfold State.loopCondition; split <;> rfl
@[simp] theorem State.loopCondition_handler (s : State) : (s.loopCondition).handler = s.handler :=
  by unfold State.loopCondition; split <;> rfl
@[simp] theorem State.loopCondition_trace (s : State) : (s.loopCondition).trace = s.trace :=
  by unfold State.loopCondition; split <;> rfl
@[simp] theorem State.loopCondition_host (s : State) : (s.loopCondition).host = s.host :=
  by unfold State.loopCondition; split <;> rfl
@[simp] theorem State.loopCondition_requests (s : State) : (s.loopCondition).requests = s.requests :=
  by unfold State.loopCondition; split <;> rfl
@[simp] theorem State.loopCondition_collab (s : State) : (s.loopCondition).collab = s.collab :=
  by unfold State.loopCondition; split <;> rfl
@[simp] theorem State.loopCondition_free (s : State) : (s.loopCondition).free = s.free :=
  by unfold State.loopCondition; split <;> rfl

/-! #### `returnStep` -/

@[simp] theorem State.returnStep_addrW (s : State) : (s.returnStep).addrW = s.addrW :=
  by unfold State.returnStep; split <;> rfl
@[simp] theorem State.returnStep_variant (s : State) : (s.returnStep).variant = s.variant :=
  by unfold State.returnStep; split <;> rfl
@[simp] theorem State.returnStep_pc (s : State) : (s.returnStep).pc = s.pc :=
  by unfold State.returnStep; split <;> rfl
@[simp] theorem State.returnStep_seq (s : State) : (s.returnStep).seq = s.seq :=
  by unfold State.returnStep; split <;> rfl
@[simp] theorem State.returnStep_nopcnt (s : State) : (s.returnStep).nopcnt = s.nopcnt :=
  by unfold State.returnStep; split <;> rfl
@[simp] theorem State.returnStep_logEnabled (s : State) : (s.returnStep).logEnabled = s.logEnabled :=
  by unfold State.returnStep; split <;> rfl
@[simp] theorem State.returnStep_syscallsIgnored (s : State) : (s.returnStep).syscallsIgnored = s.syscallsIgnored :=
  by unfold State.returnStep; split <;> rfl
@[simp] theorem State.returnStep_memBound (s : State) : (s.returnStep).memBound = s.memBound :=
  by unfold State.returnStep; split <;> rfl
@[simp] theorem State.returnStep_memsel (s : State) : (s.returnStep).memsel = s.memsel :=
  by unfold State.returnStep; split <;> rfl
@[simp] theorem State.returnStep_pcValid (s : State) : (s.returnStep).pcValid = s.pcValid :=
  by unfold State.returnStep; split <;> rfl
@[simp] theorem State.returnStep_term (s : State) : (s.returnStep).term = s.term :=
  by unfold State.returnStep; split <;> rfl
@[simp] theorem State.returnStep_err (s : State) : (s.returnStep).err = s.err :=
  by unfold State.returnStep; split <;> rfl
@[simp] theorem State.returnStep_fphase (s : State) : (s.returnStep).fphase = s.fphase :=
  by unfold State.returnStep; split <;> rfl
@[simp] theorem State.returnStep_runmax (s : State) : (s.returnStep).runmax = s.runmax :=
  by unfold State.returnStep; split <;> rfl
@[simp] theorem State.returnStep_slot (s : State) : (s.returnStep).slot = s.slot :=
  by unfold State.returnStep; split <;> rfl
@[simp] theorem State.returnStep_record (s : State) : (s.returnStep).record = s.slot.map s.recordOf :=
  by unfold State.returnStep; split <;> rfl
@[simp] theorem State.returnStep_mem (s : State) : (s.returnStep).mem = s.mem :=
  by unfold State.returnStep; split <;> rfl
@[simp] theorem State.returnStep_regs (s : State) : (s.returnStep).regs = s.regs :=
  by unfold State.returnStep; split <;> rfl
@[simp] theorem State.returnStep_handler (s : State) : (s.returnStep).handler = s.handler :=
  by unfold State.returnStep; split <;> rfl
@[simp] theorem State.returnStep_trace (s : State) : (s.returnStep).trace = s.trace :=
  by unfold State.returnStep; split <;> rfl
@[simp] theorem State.returnStep_host (s : State) : (s.returnStep).host = s.host :=
  by unfold State.returnStep; split <;> rfl
@[simp] theorem State.returnStep_requests (s : State) : (s.returnStep).requests = s.requests :=
  by unfold State.returnStep; split <;> rfl
@[simp] theorem State.returnStep_collab (s : State) : (s.returnStep).collab = s.collab :=
  by unfold State.returnStep; split <;> rfl
@[simp] theorem State.returnStep_free (s : State) : (s.returnStep).free = s.free :=
  by unfold State.returnStep; split <;> rfl

/-! #### `countProgress` -/

@[simp] theorem State.countProgress_addrW (s : State) : (s.countProgress).addrW = s.addrW :=
  by simp [State.countProgress]
@[simp] theorem State.countProgress_variant (s : State) : (s.countProgress).variant = s.variant :=
  by simp [State.countProgress]
@[simp] theorem State.countProgress_pc (s : State) : (s.countProgress).pc = s.pc :=
  by simp [State.countProgress]
@[simp] theorem State.countProgress_seq (s : State) : (s.countProgress).seq = s.seq :=
  by simp [State.countProgress]
@[simp] theorem State.countProgress_nopcnt (s : State) : (s.countProgress).nopcnt = 0 :=
  by simp [State.countProgress]
@[simp] theorem State.countProgress_logEnabled (s : State) : (s.countProgress).logEnabled = s.logEnabled :=
  by simp [State.countProgress]
@[simp] theorem State.countProgress_syscallsIgnored (s : State) : (s.countProgress).syscallsIgnored = s.syscallsIgnored :=
  by simp [State.countProgress]
@[simp] theorem State.countProgress_memBound (s : State) : (s.countProgress).memBound = s.memBound :=
  by simp [State.countProgress]
@[simp] theorem State.countProgress_memsel (s : State) : (s.countProgress).memsel = s.memsel :=
  by simp [State.countProgress]
@[simp] theorem State.countProgress_pcValid (s : State) : (s.countProgress).pcValid = s.pcValid :=
  by simp [State.countProgress]
@[simp] theorem State.countProgress_term (s : State) : (s.countProgress).term = s.term :=
  by simp [State.countProgress]
@[simp] theorem State.countProgress_err (s : State) : (s.countProgress).err = s.err :=
  by simp [State.countProgress]
@[simp] theorem State.countProgress_fphase (s : State) : (s.countProgress).fphase = s.fphase :=
  by simp [State.countProgress]
@[simp] theorem State.countProgress_runmax (s : State) : (s.countProgress).runmax = s.runmax :=
  by simp [State.countProgress]
@[simp] theorem State.countProgress_slot (s : State) : (s.countProgress).slot = s.slot :=
  by simp [State.countProgress]
@[simp] theorem State.countProgress_record (s : State) : (s.countProgress).record = s.slot.map s.recordOf :=
  by unfold State.countProgress; rw [State.returnStep_record]; rfl
@[simp] theorem State.countProgress_mem (s : State) : (s.countProgress).mem = s.mem :=
  by simp [State.countProgress]
@[simp] theorem State.countProgress_regs (s : State) : (s.countProgress).regs = s.regs :=
  by simp [State.countProgress]
@[simp] theorem State.countProgress_handler (s : State) : (s.countProgress).handler = s.handler :=
  by simp [State.countProgress]
@[simp] theorem State.countProgress_trace (s : State) : (s.countProgress).trace = s.trace :=
  by simp [State.countProgress]
@[simp] theorem State.countProgress_host (s : State) : (s.countProgress).host = s.host :=
  by simp [State.countProgress]
@[simp] theorem State.countProgress_requests (s : State) : (s.countProgress).requests = s.requests :=
  by simp [State.countProgress]
@[simp] theorem State.countProgress_collab (s : State) : (s.countProgress).collab = s.collab :=
  by simp [State.countProgress]
@[simp] theorem State.countProgress_free (s : State) : (s.countProgress).free = s.free :=
  by simp [State.countProgress]

/-! #### `countNoOp` -/

@[simp] theorem State.countNoOp_addrW (s : State) : (s.countNoOp).addrW = s.addrW :=
  by unfold State.countNoOp; dsimp only; split <;> simp
@[simp] theorem State.countNoOp_variant (s : State) : (s.countNoOp).variant = s.variant :=
  by unfold State.countNoOp; dsimp only; split <;> simp
@[simp] theorem State.countNoOp_pc (s : State) : (s.countNoOp).pc = s.pc :=
  by unfold State.countNoOp; dsimp only; split <;> simp
@[simp] theorem State.countNoOp_seq (s : State) : (s.countNoOp).seq = s.seq :=
  by unfold State.countNoOp; dsimp only; split <;> simp
@[simp] theorem State.countNoOp_nopcnt (s : State) : (s.countNoOp).nopcnt = s.nopcnt + 1 :=
  by unfold State.countNoOp; dsimp only; split <;> simp
@[simp] theorem State.countNoOp_logEnabled (s : State) : (s.countNoOp).logEnabled = s.logEnabled :=
  by unfold State.countNoOp; dsimp only; split <;> simp
@[simp] theorem State.countNoOp_syscallsIgnored (s : State) : (s.countNoOp).syscallsIgnored = s.syscallsIgnored :=
  by unfold State.countNoOp; dsimp only; split <;> simp
@[simp] theorem State.countNoOp_memBound (s : State) : (s.countNoOp).memBound = s.memBound :=
  by unfold State.countNoOp; dsimp only; split <;> simp
@[simp] theorem State.countNoOp_memsel (s : State) : (s.countNoOp).memsel = s.memsel :=
  by unfold State.countNoOp; dsimp only; split <;> simp
@[simp] theorem State.countNoOp_pcValid (s : State) : (s.countNoOp).pcValid = s.pcValid :=
  by unfold State.countNoOp; dsimp only; split <;> simp
@[simp] theorem State.countNoOp_err (s : State) : (s.countNoOp).err = s.err :=
  by unfold State.countNoOp; dsimp only; split <;> simp
@[simp] theorem State.countNoOp_runmax (s : State) : (s.countNoOp).runmax = s.runmax :=
  by unfold State.countNoOp; dsimp only; split <;> simp
@[simp] theorem State.countNoOp_slot (s : State) : (s.countNoOp).slot = s.slot :=
  by unfold State.countNoOp; dsimp only; split <;> simp
@[simp] theorem State.countNoOp_mem (s : State) : (s.countNoOp).mem = s.mem :=
  by unfold State.countNoOp; dsimp only; split <;> simp
@[simp] theorem State.countNoOp_regs (s : State) : (s.countNoOp).regs = s.regs :=
  by unfold State.countNoOp; dsimp only; split <;> simp
@[simp] theorem State.countNoOp_handler (s : State) : (s.countNoOp).handler = s.handler :=
  by unfold State.countNoOp; dsimp only; split <;> simp
@[simp] theorem State.countNoOp_trace (s : State) : (s.countNoOp).trace = s.trace :=
  by unfold State.countNoOp; dsimp only; split <;> simp
@[simp] theorem State.countNoOp_host (s : State) : (s.countNoOp).host = s.host :=
  by unfold State.countNoOp; dsimp only; split <;> simp
@[simp] theorem State.countNoOp_requests (s : State) : (s.countNoOp).requests = s.requests :=
  by unfold State.countNoOp; dsimp only; split <;> simp
@[simp] theorem State.countNoOp_collab (s : State) : (s.countNoOp).collab = s.collab :=
  by unfold State.countNoOp; dsimp only; split <;> simp
@[simp] theorem State.countNoOp_free (s : State) : (s.countNoOp).free = s.free :=
  by unfold State.countNoOp; dsimp only; split <;> simp

/-! #### `dispatch` -/

@[simp] theorem State.dispatch_addrW (s : State) (tk : TrapCode) : (s.dispatch tk).addrW = s.addrW :=
  by unfold State.dispatch; split <;> simp
@[simp] theorem State.dispatch_variant (s : State) (tk : TrapCode) : (s.dispatch tk).variant = s.variant :=
  by unfold State.dispatch; split <;> simp
@[simp] theorem State.dispatch_pc (s : State) (tk : TrapCode) : (s.dispatch tk).pc = s.pc :=
  by unfold State.dispatch; split <;> simp
@[simp] theorem State.dispatch_seq (s : State) (tk : TrapCode) : (s.dispatch tk).seq = s.seq :=
  by unfold State.dispatch; split <;> simp
@[simp] theorem State.dispatch_nopcnt (s : State) (tk : TrapCode) : (s.dispatch tk).nopcnt = s.nopcnt :=
  by unfold State.dispatch; split <;> simp
@[simp] theorem State.dispatch_logEnabled (s : State) (tk : TrapCode) : (s.dispatch tk).logEnabled = s.logEnabled :=
  by unfold State.dispatch; split <;> simp
@[simp] theorem State.dispatch_syscallsIgnored (s : State) (tk : TrapCode) : (s.dispatch tk).syscallsIgnored = s.syscallsIgnored :=
  by unfold State.dispatch; split <;> simp
@[simp] theorem State.dispatch_memBound (s : State) (tk : TrapCode) : (s.dispatch tk).memBound = s.memBound :=
  by unfold State.dispatch; split <;> simp
@[simp] theorem State.dispatch_memsel (s : State) (tk : TrapCode) : (s.dispatch tk).memsel = s.memsel :=
  by unfold State.dispatch; split <;> simp
@[simp] theorem State.dispatch_pcValid (s : State) (tk : TrapCode) : (s.dispatch tk).pcValid = s.pcValid :=
  by unfold State.dispatch; split <;> simp
@[simp] theorem State.dispatch_err (s : State) (tk : TrapCode) : (s.dispatch tk).err = s.err :=
  by unfold State.dispatch; split <;> simp
@[simp] theorem State.dispatch_fphase (s : State) (tk : TrapCode) : (s.dispatch tk).fphase = s.fphase :=
  by unfold State.dispatch; split <;> simp
@[simp] theorem State.dispatch_runcnt (s : State) (tk : TrapCode) : (s.dispatch tk).runcnt = s.runcnt :=
  by unfold State.dispatch; split <;> simp
@[simp] theorem State.dispatch_runmax (s : State) (tk : TrapCode) : (s.dispatch tk).runmax = s.runmax :=
  by unfold State.dispatch; split <;> simp
@[simp] theorem State.dispatch_slot (s : State) (tk : TrapCode) : (s.dispatch tk).slot = s.slot :=
  by unfold State.dispatch; split <;> simp
@[simp] theorem State.dispatch_record (s : State) (tk : TrapCode) : (s.dispatch tk).record = s.record :=
  by unfold State.dispatch; split <;> simp
@[simp] theorem State.dispatch_mem (s : State) (tk : TrapCode) : (s.dispatch tk).mem = s.mem :=
  by unfold State.dispatch; split <;> simp
@[simp] theorem State.dispatch_regs (s : State) (tk : TrapCode) : (s.dispatch tk).regs = s.regs :=
  by unfold State.dispatch; split <;> simp
@[simp] theorem State.dispatch_handler (s : State) (tk : TrapCode) : (s.dispatch tk).handler = s.handler :=
  by unfold State.dispatch; split <;> simp
@[simp] theorem State.dispatch_trace (s : State) (tk : TrapCode) : (s.dispatch tk).trace = s.trace :=
  by unfold State.dispatch; split <;> simp
@[simp] theorem State.dispatch_host (s : State) (tk : TrapCode) : (s.dispatch tk).host = s.host :=
  by unfold State.dispatch; split <;> simp
@[simp] theorem State.dispatch_requests (s : State) (tk : TrapCode) : (s.dispatch tk).requests = s.requests :=
  by unfold State.dispatch; split <;> simp
@[simp] theorem State.dispatch_collab (s : State) (tk : TrapCode) : (s.dispatch tk).collab = s.collab :=
  by unfold State.dispatch; split <;> simp
@[simp] theorem State.dispatch_free (s : State) (tk : TrapCode) : (s.dispatch tk).free = s.free :=
  by unfold State.dispatch; split <;> simp

end Sys2Proof.Machine
end

