-- ==== Sys2Proof/Laws/Ops.lean ====
section
/-! SUPPORT. One lemma per shared operation that says everything it can do. -/

namespace Sys2Proof.Machine

/-- A transaction that has a next state answered, or aborted and took the fault of its phase. -/
theorem transact_next {α β : Type} {p : Phase} {r : Resp α β} {f : α → State} {g : β → State}
    {t : State} (h : transact p r f g = .next t) :
    (∃ a, r = .answer a ∧ t = f a) ∨ (∃ b, r = .abort b ∧ t = (g b).faultEntry (.collab p)) := by
  cases r with
  | answer a => simp only [transact, Host.Outcome.next.injEq] at h; exact .inl ⟨a, rfl, h.symm⟩
  | abort b => simp only [transact, Host.Outcome.next.injEq] at h; exact .inr ⟨b, rfl, h.symm⟩
  | silent => simp [transact] at h

/-- A meaning that reads the slot has a next state only with an instruction in it. -/
theorem withSlot_next {p : Phase} {s : State} {k : Insn → Result} {t : State}
    (h : withSlot p s k = .next t) : ∃ i, s.slot = some i ∧ k i = .next t := by
  unfold withSlot at h
  split at h
  · next i hi => exact ⟨i, hi, h⟩
  · simp at h

/-- A meaning that reads the slot runs on the instruction in it. -/
theorem withSlot_some {p : Phase} {s : State} {i : Insn} (k : Insn → Result) (h : s.slot = some i) :
    withSlot p s k = k i := by
  unfold withSlot
  rw [h]

/-- A transaction that answers. -/
theorem transact_answer {α β : Type} {p : Phase} {r : Resp α β} {a : α} (f : α → State)
    (g : β → State) (h : r = .answer a) : transact p r f g = .next (f a) := by
  rw [h]
  rfl

/-- A transaction that aborts. -/
theorem transact_abort {α β : Type} {p : Phase} {r : Resp α β} {b : β} (f : α → State)
    (g : β → State) (h : r = .abort b) :
    transact p r f g = .next ((g b).faultEntry (.collab p)) := by
  rw [h]
  rfl

/-- The loop condition: the next PH1 below the cap, else the end of the run with NoTrap. -/
theorem State.loopCondition_cases (s : State) :
    (s.runcnt.toNat < s.runmax.toNat ∧ s.loopCondition = { s with phase := some .fetch }) ∨
    (s.runmax.toNat ≤ s.runcnt.toNat ∧
      s.loopCondition = { s with term := .notrap, runState := .idle, phase := none }) := by
  unfold State.loopCondition runContinues
  split
  · next h => exact .inl ⟨of_decide_eq_true h, rfl⟩
  · next h => exact .inr ⟨by simpa using h, rfl⟩

/-- The end of a step: a RUN counts it and goes on to PH10, a STEP is complete. -/
theorem State.returnStep_cases (s : State) :
    (s.runState = .running ∧ s.returnStep =
      { s with record := s.slot.map s.recordOf, runcnt := s.runcnt + 1, phase := some .trace }) ∨
    (s.runState ≠ .running ∧ s.returnStep =
      { s with record := s.slot.map s.recordOf, runState := .idle, phase := none }) := by
  unfold State.returnStep
  split
  · next h => exact .inl ⟨h, rfl⟩
  · next h => exact .inr ⟨h, rfl⟩

/-- A no-op: the counter is incremented; above the limit the fault is taken, else the step returns. -/
theorem State.countNoOp_cases (s : State) :
    (10 < (s.nopcnt + 1).toNat ∧
      s.countNoOp = { s with nopcnt := s.nopcnt + 1 }.faultEntry .runaway) ∨
    ((s.nopcnt + 1).toNat ≤ 10 ∧ s.countNoOp = { s with nopcnt := s.nopcnt + 1 }.returnStep) := by
  unfold State.countNoOp exceedsNopLimit Config.nopLimit
  dsimp only
  split
  · next h => exact .inl ⟨of_decide_eq_true h, rfl⟩
  · next h => exact .inr ⟨by simpa using h, rfl⟩

/-- The dispatch does one of three things, by the class alone. -/
theorem State.dispatch_cases (s : State) (tk : TrapCode) :
    ((trapClass tk = 0 ∨ trapClass tk = 3) ∧ s.dispatch tk = s.loopCondition) ∨
    (trapClass tk = 1 ∧ s.dispatch tk = s.enterSyscall) ∨
    (trapClass tk = 2 ∧ s.dispatch tk = s.haltRun) := by
  unfold State.dispatch decodeTrap
  generalize trapClass tk = k
  have hk : k = 0 ∨ k = 1 ∨ k = 2 ∨ k = 3 := by revert k; decide
  rcases hk with rfl | rfl | rfl | rfl <;> simp

/-- A quiescent sequencer is in IDLE or FAULT. -/
theorem quiescent_iff (s : State) :
    quiescent s = true ↔ s.runState = .idle ∨ s.runState = .fault := by
  unfold quiescent
  split <;> simp_all

/-- A sequencer with a command in progress is STEPPING or RUNNING. -/
theorem busy_iff (s : State) :
    quiescent s = false ↔ s.runState = .stepping ∨ s.runState = .running := by
  unfold quiescent
  split <;> simp_all

/-- What a step does, by what there is to do. -/
theorem step_cases (s : State) :
    (quiescent s = true ∧ s.host = [] ∧ step s = .next s) ∨
    (∃ cw rest, quiescent s = true ∧ s.host = .command cw :: rest ∧
      ((decodeCommand cw = none ∧ step s = .next ({ s with host := rest }.refuse .badCmd)) ∨
       ∃ i, decodeCommand cw = some i ∧ step s = exec i { s with host := rest })) ∨
    (∃ m a b rest, quiescent s = true ∧ s.host = .poke m a b :: rest ∧
      step s = .next { s with host := rest, mem := s.mem.write m (s.cut a) b }) ∨
    (∃ r rest, quiescent s = true ∧ s.host = .setRegs r :: rest ∧
      step s = .next { s with host := rest, regs := r }) ∨
    (∃ w rest, quiescent s = true ∧ s.host = .setHandler w :: rest ∧
      step s = .next { s with host := rest, handler := w }) ∨
    (∃ p, quiescent s = false ∧ s.phase = some p ∧ step s = exec p.instr s) ∨
    (quiescent s = false ∧ s.phase = none ∧ step s = .fault .noPhase) := by
  cases hq : quiescent s with
  | true =>
    cases hh : s.host with
    | nil => simp [step, fetchNext, hq, hh]
    | cons e rest =>
      cases e with
      | command cw =>
        refine .inr (.inl ⟨cw, rest, rfl, rfl, ?_⟩)
        cases hd : decodeCommand cw with
        | none => exact .inl ⟨rfl, by simp [step, fetchNext, hq, hh, takeEvent, hd]⟩
        | some i => exact .inr ⟨i, rfl, by simp [step, fetchNext, hq, hh, takeEvent, hd]⟩
      | poke m a b =>
        exact .inr (.inr (.inl ⟨m, a, b, rest, rfl, rfl, by
          simp [step, fetchNext, hq, hh, takeEvent, State.cut]⟩))
      | setRegs r =>
        exact .inr (.inr (.inr (.inl ⟨r, rest, rfl, rfl, by
          simp [step, fetchNext, hq, hh, takeEvent]⟩)))
      | setHandler w =>
        exact .inr (.inr (.inr (.inr (.inl ⟨w, rest, rfl, rfl, by
          simp [step, fetchNext, hq, hh, takeEvent]⟩))))
  | false =>
    cases hp : s.phase with
    | none => simp [step, fetchNext, hq, hp]
    | some p => simp [step, fetchNext, hq, hp]

/-- With a command in progress a step runs its phase. -/
theorem step_busy {s : State} {p : Phase} (hq : quiescent s = false) (hp : s.phase = some p) :
    step s = exec p.instr s := by
  simp [step, fetchNext, hq, hp]

/-- A quiescent sequencer to which nothing is presented waits. -/
theorem step_wait {s : State} (hq : quiescent s = true) (hh : s.host = []) : step s = .next s := by
  simp [step, fetchNext, hq, hh]

/-- A quiescent sequencer runs the command presented. -/
theorem step_command {s : State} {cw : CommandWord} {rest : List HostEvent} {i : Instr}
    (hq : quiescent s = true) (hh : s.host = .command cw :: rest) (hd : decodeCommand cw = some i) :
    step s = exec i { s with host := rest } := by
  simp [step, fetchNext, hq, hh, takeEvent, hd]

/-- A quiescent sequencer refuses a reserved opcode. -/
theorem step_reserved {s : State} {cw : CommandWord} {rest : List HostEvent}
    (hq : quiescent s = true) (hh : s.host = .command cw :: rest) (hd : decodeCommand cw = none) :
    step s = .next ({ s with host := rest }.refuse .badCmd) := by
  simp [step, fetchNext, hq, hh, takeEvent, hd]

/-- A quiescent sequencer lets the host write a byte. -/
theorem step_poke {s : State} {m : Handle} {a : Nat} {b : Byte} {rest : List HostEvent}
    (hq : quiescent s = true) (hh : s.host = .poke m a b :: rest) :
    step s = .next { s with host := rest, mem := s.mem.write m (s.cut a) b } := by
  simp [step, fetchNext, hq, hh, takeEvent, State.cut]

/-- A quiescent sequencer lets the host replace the register file. -/
theorem step_setRegs {s : State} {r : RegFile} {rest : List HostEvent}
    (hq : quiescent s = true) (hh : s.host = .setRegs r :: rest) :
    step s = .next { s with host := rest, regs := r } := by
  simp [step, fetchNext, hq, hh, takeEvent]

/-- A quiescent sequencer lets the host replace what else the handler touches. -/
theorem step_setHandler {s : State} {w : HandlerState} {rest : List HostEvent}
    (hq : quiescent s = true) (hh : s.host = .setHandler w :: rest) :
    step s = .next { s with host := rest, handler := w } := by
  simp [step, fetchNext, hq, hh, takeEvent]

/-- A command in progress without a phase has no step. -/
theorem step_noPhase {s : State} (hq : quiescent s = false) (hp : s.phase = none) :
    step s = .fault .noPhase := by
  simp [step, fetchNext, hq, hp]

/-- A run whose first step has a next state goes on from there. -/
theorem run_succ_next {k : Nat} {s t : State} (h : step s = .next t) :
    Host.Core.run Sys2Proof.core (k + 1) s = Host.Core.run Sys2Proof.core k t := by
  have h' : Sys2Proof.core.step s = .next t := h
  simp only [Host.Core.run, h']

/-- A run whose first step stops with a fault stops there. -/
theorem run_succ_fault {k : Nat} {s : State} {r : Fault} (h : step s = .fault r) :
    Host.Core.run Sys2Proof.core (k + 1) s = .fault r := by
  have h' : Sys2Proof.core.step s = .fault r := h
  simp only [Host.Core.run, h']

/-- A run whose first step is refused stops there. -/
theorem run_succ_refused {k : Nat} {s : State} {r : Refusal} (h : step s = .refused r) :
    Host.Core.run Sys2Proof.core (k + 1) s = .refused r := by
  have h' : Sys2Proof.core.step s = .refused r := h
  simp only [Host.Core.run, h']

/-- A run that has reached a state goes on with a step of that state. -/
theorem run_next_succ {k : Nat} {s t : State} (h : Host.Core.run Sys2Proof.core k s = .next t) :
    Host.Core.run Sys2Proof.core (k + 1) s = step t := by
  induction k generalizing s with
  | zero =>
    cases h
    cases ht : step t with
    | next u => rw [run_succ_next ht]; rfl
    | fault r => exact run_succ_fault ht
    | refused r => exact run_succ_refused ht
  | succ k ih =>
    cases hs : step s with
    | next u => rw [run_succ_next hs] at h ⊢; exact ih h
    | fault r => rw [run_succ_fault hs] at h; cases h
    | refused r => rw [run_succ_refused hs] at h; cases h

end Sys2Proof.Machine
end

