-- ==== Sys2Proof/Laws/Exec.lean ====
section
/-! SUPPORT. Everything an instruction that has a next state can have done: one relation, one inversion
lemma. -/

namespace Sys2Proof.Machine

/-- What running an instruction to a next state does, case by case. -/
inductive Ran : Instr → State → State → Prop
  | construct (l g : Bool) (s : State) : Ran (.construct l g) s (s.construct l g)
  | bindMemory (h : Handle) (s : State) : Ran (.bindMemory h) s
      { s with memsel := h, memBound := true, pcValid := false, err := .ok, record := none }
  | initRefused (s : State) (hb : s.memBound = false) : Ran .init s (s.refuse .noMem)
  | init (s : State) (hb : s.memBound = true) : Ran .init s (s.initEffects .idle)
  | stepRefused (s : State) (e : Err) (he : e ≠ .ok) : Ran .step s (s.refuse e)
  | step (s : State) (hf : s.runState ≠ .fault) (hb : s.memBound = true) (hv : s.pcValid = true) :
      Ran .step s { s with
        runState := .stepping, err := .ok, phase := some .fetch, record := none }
  | runRefused (n : Word64) (s : State) (hb : s.memBound = false) : Ran (.run n) s (s.refuse .noMem)
  | run (n : Word64) (s : State) (hb : s.memBound = true) : Ran (.run n) s
      { s.initEffects .running with runmax := n, runcnt := 0 }.loopCondition
  | kNotrap (sub : BitVec 6) (s : State) : Ran (.kNotrap sub) s s.loopCondition
  | kSyscall (sub : BitVec 6) (s : State) : Ran (.kSyscall sub) s s.enterSyscall
  | kHalt (sub : BitVec 6) (s : State) : Ran (.kHalt sub) s s.haltRun
  | kOther (sub : BitVec 6) (s : State) : Ran (.kOther sub) s s.loopCondition
  | npNonnop (s : State) : Ran .npNonnop s s.countProgress
  | npNop (s : State) : Ran .npNop s s.countNoOp
  | fetch (s : State) (i : Insn) (ha : answerFetch s = .answer i) : Ran .phFetch s
      { s.ask (.fetch s.memsel s.pc) with slot := some i, record := none, phase := some .seq }
  | fetchAbort (s : State) (ha : answerFetch s = .abort ()) :
      Ran .phFetch s ((s.ask (.fetch s.memsel s.pc)).faultEntry (.collab .fetch))
  | seq (s : State) (i : Insn) (hs : s.slot = some i) : Ran .phSeq s
      { s.ask (.setSeqId s.seq) with
        slot := some (i.setSeqId s.seq), seq := s.seq + 1, phase := some .read }
  | read (s : State) (i : Insn) (v : List Nat) (hs : s.slot = some i)
      (ha : answerReadSources s i = .answer v) : Ran .phRead s
      { s.ask .readSources with slot := some (i.setSources v), phase := some .exec }
  | readAbort (s : State) (i : Insn) (left : List Nat) (hs : s.slot = some i)
      (ha : answerReadSources s i = .abort left) : Ran .phRead s
      ({ s.ask .readSources with slot := some (i.setSources left) }.faultEntry (.collab .read))
  | execute (s : State) (i i' : Insn) (hs : s.slot = some i) (ha : answerExecute s i = .answer i') :
      Ran .phExec s
      { s.ask .execute with slot := some (i'.setSeqId i.seqId), phase := some .mem }
  | executeAbort (s : State) (i left : Insn) (hs : s.slot = some i)
      (ha : answerExecute s i = .abort left) : Ran .phExec s
      ({ s.ask .execute with slot := some (left.setSeqId i.seqId) }.faultEntry (.collab .exec))
  | loadStore (s : State) (i : Insn) (a : AccessAnswer) (hs : s.slot = some i)
      (ha : answerLoadStore s i = .answer a) : Ran .phMem s
      { s.ask (.loadStore s.memsel) with
        mem := s.mem.storeAll s.memsel s.addrW a.stores,
        slot := some (a.insn.setSeqId i.seqId), phase := some .wb }
  | loadStoreAbort (s : State) (i : Insn) (left : AccessAnswer) (hs : s.slot = some i)
      (ha : answerLoadStore s i = .abort left) : Ran .phMem s
      ({ s.ask (.loadStore s.memsel) with
        mem := s.mem.storeAll s.memsel s.addrW left.stores,
        slot := some (left.insn.setSeqId i.seqId) }.faultEntry (.collab .mem))
  | writeDst (s : State) (i : Insn) (r : RegFile) (hs : s.slot = some i)
      (ha : answerWriteDst s i = .answer r) : Ran .phWb s
      { s.ask .writeDst with regs := r, phase := some .trap }
  | writeDstAbort (s : State) (i : Insn) (left : RegFile) (hs : s.slot = some i)
      (ha : answerWriteDst s i = .abort left) : Ran .phWb s
      ({ s.ask .writeDst with regs := left }.faultEntry (.collab .wb))
  | checkTrap (s : State) (i : Insn) (a : TrapAnswer) (hs : s.slot = some i)
      (ha : answerCheckTrap s i = .answer a) : Ran .phTrap s
      { s.ask .checkTrap with slot := some (i.classify a), phase := some .pc }
  | checkTrapAbort (s : State) (i : Insn) (left : TrapAnswer) (hs : s.slot = some i)
      (ha : answerCheckTrap s i = .abort left) : Ran .phTrap s
      ({ s.ask .checkTrap with slot := some (i.classify left) }.faultEntry (.collab .trap))
  | pc (s : State) (i : Insn) (hs : s.slot = some i) : Ran .phPc s
      { s.ask .nextPc with pc := nextPcOf s i, phase := some .nop }
  | nopNoOp (s : State) (i : Insn) (hs : s.slot = some i) (hn : i.noOp = 1#1) :
      Ran .phNop s (s.ask .isNoOp).countNoOp
  | nopProgress (s : State) (i : Insn) (hs : s.slot = some i) (hn : i.noOp ≠ 1#1) :
      Ran .phNop s (s.ask .isNoOp).countProgress
  | trace (s : State) (i : Insn) (hs : s.slot = some i) : Ran .phTrace s
      { s.ask .traceEmit with
        trace := s.trace ++
          [{ record := s.recordOf i, logEnabled := s.logEnabled, text := textOf s i }],
        phase := some .dispatch }
  | dispatch (s : State) (i : Insn) (hs : s.slot = some i) :
      Ran .phDispatch s ((s.ask .trapKind).dispatch i.trapKind)
  | syscallIgnored (s : State) (hg : s.syscallsIgnored = true) : Ran .phSyscall s s.loopCondition
  | syscall (s : State) (w : HandlerWorld) (hg : s.syscallsIgnored = false)
      (ha : answerSyscall s = .answer w) : Ran .phSyscall s
      { s.ask .syscallExecute with regs := w.regs, handler := w.handler }.loopCondition
  | syscallAbort (s : State) (left : HandlerWorld) (hg : s.syscallsIgnored = false)
      (ha : answerSyscall s = .abort left) : Ran .phSyscall s
      ({ s.ask .syscallExecute with
        regs := left.regs, handler := left.handler }.faultEntry (.collab .syscall))

/-- An instruction that has a next state did one of these things. -/
theorem exec_ran {i : Instr} {s t : State} (h : exec i s = .next t) : Ran i s t := by
  cases i with
  | construct l g => cases h; exact .construct l g s
  | bindMemory hd => cases h; exact .bindMemory hd s
  | init =>
    simp only [exec, execInit] at h
    split at h
    · next hb => cases h; exact .init s hb
    · next hb => cases h; exact .initRefused s (by simpa using hb)
  | step =>
    simp only [exec, execStep] at h
    split at h
    · cases h; exact .stepRefused s _ (by decide)
    · split at h
      · cases h; exact .stepRefused s _ (by decide)
      · split at h
        · cases h; exact .stepRefused s _ (by decide)
        · next hf hb hv => cases h; exact .step s hf (by simpa using hb) (by simpa using hv)
  | run n =>
    simp only [exec, execRun] at h
    split at h
    · next hb => cases h; exact .run n s hb
    · next hb => cases h; exact .runRefused n s (by simpa using hb)
  | kNotrap sub => cases h; exact .kNotrap sub s
  | kSyscall sub => cases h; exact .kSyscall sub s
  | kHalt sub => cases h; exact .kHalt sub s
  | kOther sub => cases h; exact .kOther sub s
  | npNonnop => cases h; exact .npNonnop s
  | npNop => cases h; exact .npNop s
  | phFetch =>
    rcases transact_next h with ⟨a, ha, rfl⟩ | ⟨b, ha, rfl⟩
    · exact .fetch s a ha
    · exact .fetchAbort s ha
  | phSeq => obtain ⟨i, hs, h⟩ := withSlot_next h; cases h; exact .seq s i hs
  | phRead =>
    obtain ⟨i, hs, h⟩ := withSlot_next h
    rcases transact_next h with ⟨a, ha, rfl⟩ | ⟨b, ha, rfl⟩
    · exact .read s i a hs ha
    · exact .readAbort s i b hs ha
  | phExec =>
    obtain ⟨i, hs, h⟩ := withSlot_next h
    rcases transact_next h with ⟨a, ha, rfl⟩ | ⟨b, ha, rfl⟩
    · exact .execute s i a hs ha
    · exact .executeAbort s i b hs ha
  | phMem =>
    obtain ⟨i, hs, h⟩ := withSlot_next h
    rcases transact_next h with ⟨a, ha, rfl⟩ | ⟨b, ha, rfl⟩
    · exact .loadStore s i a hs ha
    · exact .loadStoreAbort s i b hs ha
  | phWb =>
    obtain ⟨i, hs, h⟩ := withSlot_next h
    rcases transact_next h with ⟨a, ha, rfl⟩ | ⟨b, ha, rfl⟩
    · exact .writeDst s i a hs ha
    · exact .writeDstAbort s i b hs ha
  | phTrap =>
    obtain ⟨i, hs, h⟩ := withSlot_next h
    rcases transact_next h with ⟨a, ha, rfl⟩ | ⟨b, ha, rfl⟩
    · exact .checkTrap s i a hs ha
    · exact .checkTrapAbort s i b hs ha
  | phPc => obtain ⟨i, hs, h⟩ := withSlot_next h; cases h; exact .pc s i hs
  | phNop =>
    obtain ⟨i, hs, h⟩ := withSlot_next h
    by_cases hn : i.noOp = 1#1
    · simp only [isNoOp, decodeNoOp, hn, if_true, Host.Outcome.next.injEq] at h
      exact h ▸ .nopNoOp s i hs hn
    · simp only [isNoOp, decodeNoOp, hn, if_false, Host.Outcome.next.injEq] at h
      exact h ▸ .nopProgress s i hs hn
  | phTrace => obtain ⟨i, hs, h⟩ := withSlot_next h; cases h; exact .trace s i hs
  | phDispatch => obtain ⟨i, hs, h⟩ := withSlot_next h; cases h; exact .dispatch s i hs
  | phSyscall =>
    simp only [exec, execPhSyscall] at h
    split at h
    · next hg => cases h; exact .syscallIgnored s hg
    · next hg =>
      have hg : s.syscallsIgnored = false := by simpa using hg
      rcases transact_next h with ⟨w, ha, rfl⟩ | ⟨left, ha, rfl⟩
      · exact .syscall s w hg ha
      · exact .syscallAbort s left hg ha

end Sys2Proof.Machine
end

