-- ==== Sys2Proof/Laws/PerInstr.lean ====
section
/-! SUPPORT. The per-instruction family: an instruction's word fits its format and matches the row of
the opcode table that bears its mnemonic (spec/30_encoding.md R70 to R78). -/

namespace Sys2Proof.Laws

/-- The word of `i` fits its format and hits the row with its mnemonic. -/
def EncodesItsRow.Statement (i : Instr) : Prop :=
  encode i < 2 ^ i.format.width ∧
    ∃ r ∈ opcodeTable, r.mnemonic = i.mnemonic ∧ r.hits i.format (encode i) = true

/-- Masking the high part of a number whose low part has `n` bits. -/
theorem high_mask (x y m n : Nat) (hy : y < 2 ^ n) :
    (x <<< n ||| y) &&& (m <<< n) = (x &&& m) <<< n := by
  apply Nat.eq_of_testBit_eq
  intro i
  simp only [Nat.testBit_and, Nat.testBit_or, Nat.testBit_shiftLeft]
  by_cases h : n ≤ i
  · have : y.testBit i = false :=
      Nat.testBit_lt_two_pow (Nat.lt_of_lt_of_le hy (Nat.pow_le_pow_right (by decide) h))
    simp [h, this]
  · simp [h]

/-- The opcode mask keeps exactly the opcode of a command word. -/
theorem commandWord_mask (op : BitVec 3) (arg : Word64) :
    (commandWord op arg).toNat &&& 0x70000000000000000 = op.toNat * 2 ^ 64 := by
  have h7 : ∀ op : BitVec 3, op.toNat &&& 7 = op.toNat := by decide
  have := high_mask op.toNat arg.toNat 7 64 arg.isLt
  rw [commandWord, BitVec.toNat_append]
  rw [h7, Nat.shiftLeft_eq op.toNat] at this
  simpa [Nat.shiftLeft_eq] using this

/-- The class mask keeps exactly the class of a trap-kind code. -/
theorem trapWord_mask (k : BitVec 2) (sub : BitVec 6) :
    (trapWord k sub).toNat &&& 0xC0 = k.toNat * 2 ^ 6 := by
  revert k sub
  decide

theorem EncodesItsRow.of_command {i : Instr} {op : BitVec 3} {arg : Word64} {r : Row}
    (he : encode i = (commandWord op arg).toNat) (hf : i.format = .cmd) (hr : r ∈ opcodeTable)
    (hn : r.mnemonic = i.mnemonic) (hrf : r.format = .cmd) (hm : r.mask = 0x70000000000000000)
    (hp : r.pattern = op.toNat * 2 ^ 64) : EncodesItsRow.Statement i := by
  refine ⟨?_, r, hr, hn, ?_⟩
  · rw [he, hf]; exact (commandWord op arg).isLt
  · simp only [Row.hits, hf, hrf, hm, he, commandWord_mask, hp, decide_true, Bool.and_self]

theorem EncodesItsRow.of_trap {i : Instr} {k : BitVec 2} {sub : BitVec 6} {r : Row}
    (he : encode i = (trapWord k sub).toNat) (hf : i.format = .tk) (hr : r ∈ opcodeTable)
    (hn : r.mnemonic = i.mnemonic) (hrf : r.format = .tk) (hm : r.mask = 0xC0)
    (hp : r.pattern = k.toNat * 2 ^ 6) : EncodesItsRow.Statement i := by
  refine ⟨?_, r, hr, hn, ?_⟩
  · rw [he, hf]; exact (trapWord k sub).isLt
  · simp only [Row.hits, hf, hrf, hm, he, trapWord_mask, hp, decide_true, Bool.and_self]

theorem EncodesItsRow.construct (l g : Bool) : EncodesItsRow.Statement (.construct l g) :=
  EncodesItsRow.of_command (r := ⟨"CONSTRUCT", .cmd, 0x00000000000000000, 0x70000000000000000⟩) rfl rfl
    (by decide) rfl rfl rfl rfl
theorem EncodesItsRow.bindMemory (h : Handle) : EncodesItsRow.Statement (.bindMemory h) :=
  EncodesItsRow.of_command (r := ⟨"BIND_MEMORY", .cmd, 0x10000000000000000, 0x70000000000000000⟩) rfl rfl
    (by decide) rfl rfl rfl rfl
theorem EncodesItsRow.init : EncodesItsRow.Statement .init :=
  EncodesItsRow.of_command (r := ⟨"INIT", .cmd, 0x20000000000000000, 0x70000000000000000⟩) rfl rfl
    (by decide) rfl rfl rfl rfl
theorem EncodesItsRow.step : EncodesItsRow.Statement .step :=
  EncodesItsRow.of_command (r := ⟨"STEP", .cmd, 0x30000000000000000, 0x70000000000000000⟩) rfl rfl
    (by decide) rfl rfl rfl rfl
theorem EncodesItsRow.run (n : Word64) : EncodesItsRow.Statement (.run n) :=
  EncodesItsRow.of_command (r := ⟨"RUN", .cmd, 0x40000000000000000, 0x70000000000000000⟩) rfl rfl
    (by decide) rfl rfl rfl rfl
theorem EncodesItsRow.kNotrap (sub : BitVec 6) : EncodesItsRow.Statement (.kNotrap sub) :=
  EncodesItsRow.of_trap (r := ⟨"K.NOTRAP", .tk, 0x00, 0xC0⟩) rfl rfl (by decide) rfl rfl rfl rfl
theorem EncodesItsRow.kSyscall (sub : BitVec 6) : EncodesItsRow.Statement (.kSyscall sub) :=
  EncodesItsRow.of_trap (r := ⟨"K.SYSCALL", .tk, 0x40, 0xC0⟩) rfl rfl (by decide) rfl rfl rfl rfl
theorem EncodesItsRow.kHalt (sub : BitVec 6) : EncodesItsRow.Statement (.kHalt sub) :=
  EncodesItsRow.of_trap (r := ⟨"K.HALT", .tk, 0x80, 0xC0⟩) rfl rfl (by decide) rfl rfl rfl rfl
theorem EncodesItsRow.kOther (sub : BitVec 6) : EncodesItsRow.Statement (.kOther sub) :=
  EncodesItsRow.of_trap (r := ⟨"K.OTHER", .tk, 0xC0, 0xC0⟩) rfl rfl (by decide) rfl rfl rfl rfl
theorem EncodesItsRow.npNonnop : EncodesItsRow.Statement .npNonnop := by
  unfold EncodesItsRow.Statement; decide
theorem EncodesItsRow.npNop : EncodesItsRow.Statement .npNop := by
  unfold EncodesItsRow.Statement; decide
theorem EncodesItsRow.phFetch : EncodesItsRow.Statement .phFetch := by
  unfold EncodesItsRow.Statement; decide
theorem EncodesItsRow.phSeq : EncodesItsRow.Statement .phSeq := by
  unfold EncodesItsRow.Statement; decide
theorem EncodesItsRow.phRead : EncodesItsRow.Statement .phRead := by
  unfold EncodesItsRow.Statement; decide
theorem EncodesItsRow.phExec : EncodesItsRow.Statement .phExec := by
  unfold EncodesItsRow.Statement; decide
theorem EncodesItsRow.phMem : EncodesItsRow.Statement .phMem := by
  unfold EncodesItsRow.Statement; decide
theorem EncodesItsRow.phWb : EncodesItsRow.Statement .phWb := by
  unfold EncodesItsRow.Statement; decide
theorem EncodesItsRow.phTrap : EncodesItsRow.Statement .phTrap := by
  unfold EncodesItsRow.Statement; decide
theorem EncodesItsRow.phPc : EncodesItsRow.Statement .phPc := by
  unfold EncodesItsRow.Statement; decide
theorem EncodesItsRow.phNop : EncodesItsRow.Statement .phNop := by
  unfold EncodesItsRow.Statement; decide
theorem EncodesItsRow.phTrace : EncodesItsRow.Statement .phTrace := by
  unfold EncodesItsRow.Statement; decide
theorem EncodesItsRow.phDispatch : EncodesItsRow.Statement .phDispatch := by
  unfold EncodesItsRow.Statement; decide
theorem EncodesItsRow.phSyscall : EncodesItsRow.Statement .phSyscall := by
  unfold EncodesItsRow.Statement; decide

end Sys2Proof.Laws
end

