-- ==== Sys2Proof/Tests/Slice0.lean ====
section
/-! SUPPORT. The model's own tests: words of the spec's encodings, one-step vectors of
spec/95_test_vectors.md (the vector is named in each docstring), and for every obligation with
hypotheses concrete states that meet them. -/

namespace Sys2Proof.Tests

open Sys2Proof Sys2Proof.Machine

/-! ### States -/

/-- An instruction: its no-op bit, trap kind and next-PC. -/
def insn (np : BitVec 1) (tk : TrapCode) (next : Nat) : Insn :=
  { blankInsn with noOp := np, trapKind := tk, nextPc := next }

/-- The start of spec/95_test_vectors.md 2.3, with the counters of 2.6: STATUS 0x300. -/
def ready : State :=
  { State.reset with
    pc := 0x1000, seq := 5, nopcnt := 2, memsel := 1, memBound := true, pcValid := true,
    runcnt := 3, runmax := 10 }

/-- A RUN with phase `p` in progress on instruction `i`. -/
def running (p : Phase) (i : Insn) : State :=
  { ready with runState := .running, phase := some p, slot := some i }

/-- A STEP with phase `p` in progress on instruction `i`. -/
def stepping (p : Phase) (i : Insn) : State :=
  { ready with runState := .stepping, phase := some p, slot := some i }

/-- The collaborators answer what state `s` asks about instruction `i`. -/
def answered (s : State) (i : Insn) : State :=
  { s with collab := {
      startAddress := [(s.memsel, 0x1000)],
      fetch := [(fetchKey s, .answer i)],
      readSources := [(regKey s i, .answer [7])],
      execute := [(i, .answer { i with results := [8] })],
      loadStore := [(accessKey s i, .answer { stores := [(0x20, 1), (0x20, 2)], insn := i })],
      writeDst := [(regKey s i, .answer [8])],
      checkTrap := [(i, .answer { kind := 0xC5, nextPc := 0x1008 })],
      syscall := [(handlerWorld s, .answer { regs := [9], handler := [1] })],
      text := [(i, "text")] } }

/-- The collaborators abort what state `s` asks about instruction `i`. -/
def aborted (s : State) (i : Insn) : State :=
  { s with collab := {
      startAddress := [],
      fetch := [(fetchKey s, .abort ())],
      readSources := [(regKey s i, .abort [6])],
      execute := [(i, .abort i)],
      loadStore := [(accessKey s i, .abort { stores := [(0x20, 1)], insn := i })],
      writeDst := [(regKey s i, .abort [4])],
      checkTrap := [(i, .abort { kind := 0, nextPc := 0 })],
      syscall := [(handlerWorld s, .abort { regs := [4], handler := [] })],
      text := [] } }

/-- The collaborators never answer what state `s` asks about instruction `i`. -/
def silenced (s : State) (i : Insn) : State :=
  { s with collab := {
      startAddress := [],
      fetch := [(fetchKey s, .silent)],
      readSources := [(regKey s i, .silent)],
      execute := [(i, .silent)],
      loadStore := [(accessKey s i, .silent)],
      writeDst := [(regKey s i, .silent)],
      checkTrap := [(i, .silent)],
      syscall := [(handlerWorld s, .silent)],
      text := [] } }

/-- State FAULT after a runaway: STATUS 0xF03. -/
def faulted : State := { ready with runState := .fault, term := .runaway, nopcnt := 11 }

/-- `s` with one command word presented. -/
def presented (s : State) (cw : CommandWord) : State := { s with host := [.command cw] }

/-- The outcome is a next state with the property. -/
def gives (r : Result) (p : State → Bool) : Bool :=
  match r with
  | .next t => p t
  | _ => false

/-- The STATUS word as a number. -/
def status (s : State) : Nat := (statusWord s).toNat

def plain : Insn := insn 0 0x40 0x1004
def noop : Insn := insn 1 0 0x1004

/-! ### Words: every row, and the checks on words -/

/-- R71: `op` in bits 66:64, `arg` in bits 63:0. -/
theorem test_decode_construct :
    decode .cmd 0b000_0000000000000000000000000000000000000000000000000000000000000001
      = some (.construct true false) ∧
    decode .cmd 0x00000000000000002 = some (.construct false true) ∧
    decode .cmd 0x0FFFFFFFFFFFFFFFE = some (.construct false true) := by decide
theorem test_decode_bind_memory :
    decode .cmd 0b001_1000000000000000000000000000000000000000000000000000000000000010
      = some (.bindMemory 0x8000000000000002) := by decide
theorem test_decode_init : decode .cmd 0x2DEADBEEF00000000 = some .init := by decide
theorem test_decode_step : decode .cmd 0x30000000000000000 = some .step := by decide
theorem test_decode_run :
    decode .cmd 0b100_0000000000000000000000000000000000000000000000000000000000001010
      = some (.run 10) ∧
    decode .cmd 0x4FFFFFFFFFFFFFFFF = some (.run 0xFFFFFFFFFFFFFFFF) := by decide
/-- R73: the class in bits 7:6, the sub-code in bits 5:0. -/
theorem test_decode_trap_kinds :
    decode .tk 0b00_000001 = some (.kNotrap 1) ∧ decode .tk 0b01_000010 = some (.kSyscall 2) ∧
    decode .tk 0b10_000100 = some (.kHalt 4) ∧ decode .tk 0b11_100000 = some (.kOther 32) := by
  decide
/-- R74. -/
theorem test_decode_no_op :
    decode .np 0b0 = some .npNonnop ∧ decode .np 0b1 = some .npNop := by decide
/-- R75. -/
theorem test_decode_phases :
    [0b0001, 0b0010, 0b0011, 0b0100, 0b0101, 0b0110, 0b0111, 0b1000, 0b1001, 0b1010, 0b1011,
      0b1100].map (decode .ph) =
    [some .phFetch, some .phSeq, some .phRead, some .phExec, some .phMem, some .phWb,
      some .phTrap, some .phPc, some .phNop, some .phTrace, some .phDispatch, some .phSyscall] := by
  decide

/-- R81: a word with a bit above its format's width is no word of the format. -/
theorem test_too_wide_words_are_refused :
    [fitsFormat .cmd (2 ^ 67), fitsFormat .tk 0x100, fitsFormat .np 2, fitsFormat .ph 0x10] =
      [false, false, false, false] ∧
    [decode .cmd (2 ^ 67), decode .tk 0x100, decode .np 2, decode .ph 0x10] =
      [none, none, none, none] := by decide
/-- R79 a, V2.1 to V2.3: the reserved opcodes. -/
theorem test_reserved_opcodes_are_refused :
    [selectsRow .cmd 0x50000000000000000, selectsRow .cmd 0x60000000000000123,
      selectsRow .cmd 0x7FFFFFFFFFFFFFFFF] = [false, false, false] ∧
    [decode .cmd 0x50000000000000000, decode .cmd 0x60000000000000123,
      decode .cmd 0x7FFFFFFFFFFFFFFFF] = [none, none, none] := by decide
/-- R75: codes 0, 13, 14 and 15 select no phase. -/
theorem test_phase_codes_without_a_phase_are_refused :
    [selectsRow .ph 0, selectsRow .ph 13, selectsRow .ph 14, selectsRow .ph 15] =
      [false, false, false, false] ∧
    [decode .ph 0, decode .ph 13, decode .ph 14, decode .ph 15] = [none, none, none, none] := by
  decide

/-- The words of spec/opcode_table.json in its order, with their lengths in whole bytes. -/
def tableWords : List (Nat × Nat) :=
  [(72, 0), (72, 0x10000000000000000), (72, 0x20000000000000000), (72, 0x30000000000000000),
    (72, 0x40000000000000000), (8, 0x40), (8, 0x80), (8, 0xC0), (8, 0), (8, 1)] ++
  [(8, 2), (8, 3), (8, 4), (8, 5), (8, 6), (8, 7), (8, 8), (8, 9), (8, 10), (8, 11), (8, 12)]

/-- Placed where a step takes it, each word runs as the first instruction after reset. -/
theorem test_table_words_run_after_reset :
    tableWords.all (fun x => gives (step (State.reset.withFetchWord x.1 x.2)) fun _ => true) = true := by
  decide

/-! ### Commands: spec/95_test_vectors.md 2.1 and 2.2 -/

/-- V1.5. -/
theorem test_construct_ignores_unused_bits :
    gives (step (presented faulted 0x0FFFFFFFFFFFFFFFE))
      (fun t => cfgWord t = 2 ∧ status t = 0 ∧ t.seq = 0 ∧ t.nopcnt = 0 ∧ t.runmax = 0) = true := by
  decide
/-- V1.8. -/
theorem test_bind_memory_clears_pc_valid :
    gives (step (presented ready 0x10000000000000002))
      (fun t => t.memsel = 2 ∧ status t = 0x100 ∧ t.seq = 5 ∧ t.nopcnt = 2) = true := by decide
/-- V2.10: binding again does not leave FAULT. -/
theorem test_bind_memory_keeps_fault :
    gives (exec (.bindMemory 2) faulted) (fun t => status t = 0xD03) = true := by decide
/-- V1.11. -/
theorem test_init_keeps_seq :
    gives (step (presented (answered ready plain) 0x20000000000000000))
      (fun t => t.pc = 0x1000 ∧ t.nopcnt = 0 ∧ t.seq = 5 ∧ status t = 0x300) = true := by decide
/-- V2.4. -/
theorem test_init_without_memory :
    gives (exec .init State.reset) (fun t => status t = 0x4000 ∧ t.requests = []) = true := by decide
/-- V2.7 and V2.10: IN_FAULT is checked before NO_INIT. -/
theorem test_step_refusals :
    gives (exec .step { ready with pcValid := false }) (fun t => status t = 0x6100) = true ∧
    gives (exec .step { faulted with pcValid := false }) (fun t => status t = 0x8D03) = true := by
  decide
/-- 2.3: STATUS[7:0] reads 0x11 in PH1 of a STEP. -/
theorem test_step_starts_phase_one :
    gives (step (presented ready 0x30000000000000000)) (fun t => status t = 0x311) = true := by
  decide
/-- V1.14. -/
theorem test_run_zero :
    gives (exec (.run 0) (answered ready plain)) (fun t => t.pc = 0x1000 ∧ t.nopcnt = 0 ∧
      t.runmax = 0 ∧ t.runcnt = 0 ∧ status t = 0x700 ∧ t.requests = [.startAddress 1]) = true := by
  decide
/-- V2.6. -/
theorem test_run_without_memory :
    gives (exec (.run 5) State.reset) (fun t => status t = 0x4000 ∧ t.runmax = 0) = true := by decide
/-- V2.3. -/
theorem test_reserved_opcode_changes_only_err :
    gives (step (presented ready 0x7FFFFFFFFFFFFFFFF))
      (fun t => status t = 0x2300 ∧ t.pc = 0x1000 ∧ t.seq = 5 ∧ t.nopcnt = 2) = true := by decide

/-! ### Trap classes and the guard: 2.5 and 2.6 -/

/-- V6.2. -/
theorem test_notrap_continues :
    gives (exec (.kNotrap 0x3F) (running .dispatch plain)) (fun t => t.phase = some .fetch) = true := by
  decide
/-- V7.3: at the cap the run ends with NoTrap. -/
theorem test_notrap_ends_at_cap :
    gives (exec (.kNotrap 0) { running .dispatch plain with runcnt := 10 })
      (fun t => status t = 0x700) = true := by decide
/-- V6.5. -/
theorem test_syscall_enters_phase_twelve :
    gives (exec (.kSyscall 0x3F) (running .dispatch plain)) (fun t => t.phase = some .syscall)
      = true := by decide
/-- V6.12: Halt wins over the cap. -/
theorem test_halt_ends_the_run :
    gives (exec (.kHalt 0) { running .dispatch plain with runcnt := 10 })
      (fun t => status t = 0xB00 ∧ t.runcnt = 10) = true := by decide
/-- V6.10. -/
theorem test_other_falls_through :
    gives (exec (.kOther 0x3F) (running .dispatch plain)) (fun t => t.phase = some .fetch) = true := by
  decide
/-- V5.5. -/
theorem test_nonnop_zeroes :
    gives (exec .npNonnop { stepping .nop plain with nopcnt := 10 })
      (fun t => t.nopcnt = 0 ∧ status t = 0x300) = true := by decide
/-- V5.3. -/
theorem test_nop_counts_to_ten :
    gives (exec .npNop { stepping .nop noop with nopcnt := 9 })
      (fun t => t.nopcnt = 10 ∧ status t = 0x300) = true := by decide
/-- V5.4. -/
theorem test_eleventh_nop_faults :
    gives (exec .npNop { stepping .nop noop with nopcnt := 10 })
      (fun t => t.nopcnt = 11 ∧ status t = 0xF03 ∧ t.record = none) = true := by decide

/-! ### Phases: 2.3, 2.4 and 2.7 -/

/-- 2.3, PH1. -/
theorem test_fetch :
    gives (step (answered (stepping .fetch noop) plain)) (fun t => t.slot = some plain ∧
      t.requests = [.fetch 1 0x1000] ∧ t.phase = some .seq) = true := by decide
/-- V4.1. -/
theorem test_fetch_abort :
    gives (step (aborted (stepping .fetch plain) plain))
      (fun t => status t = 0x11303 ∧ t.seq = 5 ∧ t.pc = 0x1000) = true := by decide
/-- V7.1. -/
theorem test_seq_wraps :
    gives (step { stepping .seq plain with seq := 0xFFFFFFFFFFFFFFFF })
      (fun t => t.seq = 0 ∧ t.slot.map Insn.seqId = some 0xFFFFFFFFFFFFFFFF) = true := by decide
/-- 2.3, PH3. -/
theorem test_read :
    gives (step (answered (stepping .read plain) plain))
      (fun t => t.slot.map Insn.sources = some [7] ∧ t.phase = some .exec) = true := by decide
/-- V4.2. -/
theorem test_read_abort :
    gives (step (aborted (stepping .read plain) plain)) (fun t => status t = 0x31303) = true := by
  decide
/-- 2.3, PH4. -/
theorem test_execute :
    gives (step (answered (stepping .exec plain) plain))
      (fun t => t.slot.map Insn.results = some [8] ∧ t.phase = some .mem) = true := by decide
/-- V4.3. -/
theorem test_execute_abort :
    gives (step (aborted (stepping .exec plain) plain)) (fun t => status t = 0x41303) = true := by
  decide
/-- 2.3, PH5; of two stores to one byte the later one stays, and another memory is not touched. -/
theorem test_load_store :
    gives (step (answered (stepping .mem plain) plain)) (fun t => t.mem.read 1 0x20 = some 2 ∧
      t.mem.read 2 0x20 = none ∧ t.mem.read 1 0x21 = none ∧ t.phase = some .wb) = true := by decide
/-- V4.4; the store already made stays (R110). -/
theorem test_load_store_abort :
    gives (step (aborted (stepping .mem plain) plain))
      (fun t => status t = 0x51303 ∧ t.mem.read 1 0x20 = some 1) = true := by decide
/-- 2.3, PH6. -/
theorem test_write_back :
    gives (step (answered (stepping .wb plain) plain)) (fun t => t.regs = [8] ∧ t.phase = some .trap)
      = true := by decide
/-- V4.5. -/
theorem test_write_back_abort :
    gives (step (aborted (stepping .wb plain) plain)) (fun t => status t = 0x61303) = true := by
  decide
/-- 2.3, PH7. -/
theorem test_check_trap :
    gives (step (answered (stepping .trap plain) plain)) (fun t => t.phase = some .pc ∧
      t.slot.map Insn.trapKind = some 0xC5 ∧ t.pc = 0x1000) = true := by decide
/-- V4.6. -/
theorem test_check_trap_abort :
    gives (step (aborted (stepping .trap plain) plain)) (fun t => status t = 0x71303) = true := by
  decide
/-- V7.5, and 2.3, PH8. -/
theorem test_pc_is_stored_unchanged :
    gives (step { stepping .pc (insn 0 0 0xFFFC) with addrW := 16 }) (fun t => t.pc = 0xFFFC) = true ∧
    gives (step (stepping .pc plain)) (fun t => t.pc = 0x1004 ∧ t.phase = some .nop) = true := by
  decide
/-- 2.3, PH9 and the end of the STEP. -/
theorem test_nop_phase_returns :
    gives (step { stepping .nop { plain with seqId := 5 } with pc := 0x1004, seq := 6 })
      (fun t => t.nopcnt = 0 ∧ status t = 0x300 ∧
        t.record = some { seqId := 5, nextPc := 0x1004, tk := 0x40, np := 0 }) = true := by decide
/-- V5.7: the runaway comes before the Halt is dispatched. -/
theorem test_runaway_before_halt :
    gives (step { running .nop (insn 1 0x80 0) with nopcnt := 10 })
      (fun t => status t = 0xF03 ∧ t.trace = [] ∧ t.runcnt = 3) = true := by decide
/-- 2.3, PH10. -/
theorem test_trace :
    gives (step { answered (running .trace plain) plain with logEnabled := true })
      (fun t => t.trace.map TraceEntry.logEnabled = [true] ∧
        t.trace.map TraceEntry.text = ["text"] ∧ t.phase = some .dispatch) = true := by decide
/-- V6.6 and V6.9. -/
theorem test_dispatch :
    gives (step (running .dispatch (insn 0 0x80 0))) (fun t => status t = 0xB00 ∧ t.runcnt = 3)
      = true ∧
    gives (step (running .dispatch (insn 0 0xC5 0))) (fun t => t.phase = some .fetch) = true := by
  decide
/-- V6.3, V6.4: one transaction with the handler, or none; the run goes on. -/
theorem test_syscall_phase :
    gives (step (answered (running .syscall plain) plain)) (fun t => t.regs = [9] ∧
      t.requests = [.syscallExecute] ∧ t.phase = some .fetch) = true ∧
    gives (step { running .syscall plain with syscallsIgnored := true }) (fun t => t.regs = [] ∧
      t.requests = [] ∧ t.phase = some .fetch) = true := by decide
/-- V4.7. -/
theorem test_syscall_abort :
    gives (step (aborted (running .syscall plain) plain))
      (fun t => status t = 0xC1303 ∧ t.runcnt = 3) = true := by decide
/-- R63: the host may write memory between commands. -/
theorem test_poke :
    gives (step { ready with host := [.poke 1 0x20 5] })
      (fun t => t.mem.read 1 0x20 = some 5 ∧ t.mem.read 1 0x21 = none) = true := by decide
/-- U18: the host changes the handler's own state between commands, and the handler then sees it. -/
theorem test_set_handler :
    gives (step { ready with host := [.setHandler [4]] })
      (fun t => t.handler = [4] ∧ t.regs = [] ∧ handlerWorld t = { regs := [], handler := [4] })
      = true := by decide

/-! ### Witnesses: states that meet the hypotheses of the obligations, clause by clause -/

theorem witness_ResetIsThePowerOnState :
    exec (.construct false false) State.reset = .next (State.reset.construct false false) := rfl

theorem witness_InitWritesPcFromStartAddress :
    ready.memBound = true ∧ State.reset.memBound = false ∧
    exec .init ready = .next (ready.initEffects .idle) ∧
    exec .init (ready.initEffects .idle) = .next ((ready.initEffects .idle).initEffects .idle) :=
  ⟨rfl, rfl, rfl, rfl⟩

theorem witness_StepCommandStartsPhaseOne :
    ready.runState ≠ .fault ∧ ready.memBound = true ∧ ready.pcValid = true := by decide

theorem witness_RunStartsWithInitAndTheCap : ready.memBound = true ∧ faulted.memBound = true := by
  decide

theorem witness_RefusedCommandWritesOnlyErr :
    (quiescent (presented ready 0x50000000000000000) = true ∧
      5 ≤ (commandOp 0x50000000000000000).toNat ∧ 5 ≤ (commandOp 0x7FFFFFFFFFFFFFFFF).toNat) ∧
    faulted.runState = .fault ∧
    (State.reset.runState ≠ .fault ∧ State.reset.memBound = false) ∧
    (let s := { ready with pcValid := false };
      s.runState ≠ .fault ∧ s.memBound = true ∧ s.pcValid = false) := by decide

/-- The last clause: a refused and an accepted command, each with a next state. -/
theorem witness_RefusedCommandWritesOnlyErr_both :
    Instr.init.format = .cmd ∧ exec .init State.reset = .next (State.reset.refuse .noMem) ∧
    exec .init ready = .next (ready.initEffects .idle) := ⟨rfl, rfl, rfl⟩

theorem witness_FetchPutsAFreshInstructionInTheSlot :
    answerFetch (answered ready plain) = .answer plain := by decide

theorem witness_SeqAssignsTheOldIdAndIncrements :
    { stepping .seq plain with seq := 0xFFFFFFFFFFFFFFFF }.slot = some plain := by decide

theorem witness_ReadAndExecuteChangeOnlyTheInstruction :
    (answered (stepping .read plain) plain).slot = some plain ∧
    answerReadSources (answered (stepping .read plain) plain) plain = .answer [7] ∧
    answerExecute (answered (stepping .exec plain) plain) plain =
      .answer { plain with results := [8] } := by decide

/-- A list of two stores to one byte, and an empty list. -/
theorem witness_LoadStoreWritesExactlyTheAnsweredBytes :
    let s := answered (stepping .mem plain) plain
    let u := { s with collab := { s.collab with
      loadStore := [(accessKey s plain, .answer { stores := [], insn := plain })] } }
    s.slot = some plain ∧
    answerLoadStore s plain = .answer { stores := [(0x20, 1), (0x20, 2)], insn := plain } ∧
    u.slot = some plain ∧ answerLoadStore u plain = .answer { stores := [], insn := plain } := by
  decide

theorem witness_WriteBackCommitsTheRegisterFile :
    let s := answered (stepping .wb plain) plain
    s.slot = some plain ∧ answerWriteDst s plain = .answer [8] := by decide

theorem witness_WriteBackCommitsTheRegisterFile_next :
    let s := answered (stepping .wb plain) plain
    exec .phWb s = .next { s.ask .writeDst with regs := [8], phase := some .trap } := rfl

theorem witness_CheckTrapClassifiesWithoutActing :
    let s := answered (stepping .trap plain) plain
    s.slot = some plain ∧ answerCheckTrap s plain = .answer { kind := 0xC5, nextPc := 0x1008 } := by
  decide

/-- A next-PC at the top of the address space, and one the port cuts. -/
theorem witness_PcPhaseStoresNextPcUnchanged :
    let top := insn 0 0 (2 ^ 64 - 1)
    let above := insn 0 0 (2 ^ 64)
    (stepping .pc top).slot = some top ∧ top.nextPc < 2 ^ (stepping .pc top).addrW ∧
    (stepping .pc above).slot = some above := by decide

/-- The last no-op below the limit, and a non-no-op at any count. -/
theorem witness_NopPhaseReturnsTheInstruction :
    let s := { running .nop noop with nopcnt := 9 }
    let u := { stepping .nop plain with nopcnt := 10 }
    (s.slot = some noop ∧ (noop.noOp = 1#1 → s.nopcnt.toNat < 10)) ∧
    (u.slot = some plain ∧ (plain.noOp = 1#1 → u.nopcnt.toNat < 10)) := by decide

theorem witness_ProgressClassesUpdateTheCounter :
    { running .nop noop with nopcnt := 9 }.nopcnt.toNat < 10 := by decide

theorem witness_EleventhNoOpRaisesRunaway :
    let s := { running .nop (insn 1 0x80 0) with nopcnt := 10 }
    s.nopcnt = 10 ∧ s.slot = some (insn 1 0x80 0) ∧ (insn 1 0x80 0).noOp = 1#1 ∧
    { s with nopcnt := 9 }.nopcnt = 9 := by decide

/-- The instruction of the sequence witness after PH2, after PH3, after PH4. -/
def sequenced : Insn := { plain with seqId := 5 }
def sourced : Insn := { sequenced with sources := [7] }
def executed : Insn := { sourced with results := [8] }
def loaded : Insn := { executed with loaded := some 3 }

/-- A STEP with PH1 in progress whose collaborators answer every phase. -/
def sequence : State :=
  let s : State := { ready with runState := .stepping, phase := some .fetch }
  { s with collab := { Collab.unlisted with
      fetch := [(fetchKey s, .answer plain)],
      readSources := [(regKey s sequenced, .answer [7])],
      execute := [(sourced, .answer executed)],
      loadStore := [(accessKey s executed, .answer { stores := [(0x20, 1)], insn := loaded })],
      writeDst := [(regKey s loaded, .answer [8])],
      checkTrap := [(loaded, .answer { kind := 0x40, nextPc := 0x1004 })] } }

theorem witness_NineStepPhasesRunInOrder :
    quiescent sequence = false ∧ sequence.phase = some .fetch ∧
    answerFetch sequence = .answer plain ∧
    answerReadSources sequence { plain with seqId := sequence.seq } = .answer [7] ∧
    answerExecute sequence { plain with seqId := sequence.seq, sources := [7] } =
      .answer executed ∧
    answerLoadStore sequence { executed with seqId := sequence.seq } =
      .answer { stores := [(0x20, 1)], insn := loaded } ∧
    answerWriteDst sequence { loaded with seqId := sequence.seq } = .answer [8] ∧
    answerCheckTrap sequence { loaded with seqId := sequence.seq } =
      .answer { kind := 0x40, nextPc := 0x1004 } := by decide

/-- The three clauses: a non-no-op, the last no-op below the limit, the eleventh no-op; each with the
collaborators of `sequence`, for a step whose instruction is a no-op with NOPCNT `n`. -/
def noopSequence (n : BitVec 32) : State :=
  let i : Insn := { noop with seqId := 5 }
  let s : State := { ready with nopcnt := n, runState := .running, phase := some .fetch }
  { s with collab := { Collab.unlisted with
      fetch := [(fetchKey s, .answer noop)],
      readSources := [(regKey s i, .answer [])],
      execute := [(i, .answer i)],
      loadStore := [(accessKey s i, .answer { stores := [], insn := i })],
      writeDst := [(regKey s i, .answer [])],
      checkTrap := [(i, .answer { kind := 0x80, nextPc := 0x1004 })] } }

theorem witness_NineStepPhasesRunInOrder_ninth :
    (loaded.noOp = 1#1 → sequence.nopcnt.toNat < 10) ∧
    [noopSequence 9, noopSequence 10].all (fun s =>
      let i : Insn := { noop with seqId := s.seq }
      !quiescent s && s.phase = some .fetch && answerFetch s = .answer noop &&
      answerReadSources s i = .answer [] && answerExecute s { i with sources := [] } = .answer i &&
      answerLoadStore s i = .answer { stores := [], insn := i } &&
      answerWriteDst s i = .answer [] &&
      answerCheckTrap s i = .answer { kind := 0x80, nextPc := 0x1004 } && i.noOp = 1#1) = true ∧
    (noopSequence 9).nopcnt.toNat < 10 ∧ (noopSequence 10).nopcnt = 10 := by decide

theorem witness_AbortTakesTheFaultOfItsPhase :
    let s := aborted (running .mem plain) plain
    s.slot = some plain ∧ s.syscallsIgnored = false ∧ answerFetch s = .abort () ∧
    answerReadSources s plain = .abort [6] ∧ answerExecute s plain = .abort plain ∧
    answerLoadStore s plain = .abort { stores := [(0x20, 1)], insn := plain } ∧
    answerWriteDst s plain = .abort [4] ∧
    answerCheckTrap s plain = .abort { kind := 0, nextPc := 0 } ∧
    answerSyscall s = .abort { regs := [4], handler := [] } := by decide

theorem witness_SilentCollaboratorLeavesNoStep :
    let s := silenced (running .mem plain) plain
    s.slot = some plain ∧ s.syscallsIgnored = false ∧ answerFetch s = .silent ∧
    answerReadSources s plain = .silent ∧ answerExecute s plain = .silent ∧
    answerLoadStore s plain = .silent ∧ answerWriteDst s plain = .silent ∧
    answerCheckTrap s plain = .silent ∧ answerSyscall s = .silent := by decide

theorem witness_TraceEmitsEveryReturnedInstruction :
    (running .trace plain).slot = some plain := by decide

/-- One step below the cap, and the cap itself. -/
theorem witness_NoTrapAndOtherGoToTheLoopCondition :
    (let s := { running .dispatch plain with runcnt := 9 };
      s.runcnt.toNat < s.runmax.toNat) ∧
    (let s := { running .dispatch plain with runcnt := 10 };
      s.runmax.toNat ≤ s.runcnt.toNat) := by decide

theorem witness_DispatchRunsTheClassOfTheTrapKind :
    (running .dispatch plain).slot = some plain ∧ trapClass 0x40 = trapClass 0x7F := by decide

theorem witness_SyscallPhaseAsksTheHandlerOnceIfEnabled :
    (let s := answered (running .syscall plain) plain;
      s.syscallsIgnored = false ∧ answerSyscall s = .answer { regs := [9], handler := [1] }) ∧
    { running .syscall plain with syscallsIgnored := true }.syscallsIgnored = true := by decide

/-- A RUN in progress meets the invariant, whatever its phase from PH2 on. -/
theorem running_invariant (p : Phase) : Invariant (running p plain) where
  addrW_pos := (by decide : 1 ≤ ready.addrW)
  pc_fits := (by decide : ready.pc < 2 ^ ready.addrW)
  mem_wf := List.Pairwise.nil
  mem_fits := nofun
  nopcnt_le := (by decide : ready.nopcnt.toNat ≤ 11)
  nopcnt_limit := fun h => absurd h (by decide : ready.nopcnt.toNat ≠ 11)
  runcnt_le := (by decide : ready.runcnt.toNat ≤ ready.runmax.toNat)
  run_room := fun _ _ => (by decide : ready.runcnt.toNat < ready.runmax.toNat)
  phase_quiescent := ⟨nofun, nofun⟩
  stepping_phase := nofun
  busy_ready := fun _ => ⟨rfl, rfl⟩
  fault_bound := nofun
  pcValid_bound := fun _ => rfl
  slot_held := fun _ _ _ => rfl
  fault_term := ⟨nofun, fun h => by rcases h with h | h <;> cases h⟩
  running_term := fun _ => rfl
  fphase_term := ⟨nofun, nofun⟩

/-- A STEP in progress meets the invariant in each of its nine phases. -/
theorem stepping_invariant (p : Phase) (hp : inStep (some p) = true) :
    Invariant (stepping p plain) where
  addrW_pos := (by decide : 1 ≤ ready.addrW)
  pc_fits := (by decide : ready.pc < 2 ^ ready.addrW)
  mem_wf := List.Pairwise.nil
  mem_fits := nofun
  nopcnt_le := (by decide : ready.nopcnt.toNat ≤ 11)
  nopcnt_limit := fun h => absurd h (by decide : ready.nopcnt.toNat ≠ 11)
  runcnt_le := (by decide : ready.runcnt.toNat ≤ ready.runmax.toNat)
  run_room := nofun
  phase_quiescent := ⟨nofun, nofun⟩
  stepping_phase := fun _ => hp
  busy_ready := fun _ => ⟨rfl, rfl⟩
  fault_bound := nofun
  pcValid_bound := fun _ => rfl
  slot_held := fun _ _ _ => rfl
  fault_term := ⟨nofun, fun h => by rcases h with h | h <;> cases h⟩
  running_term := nofun
  fphase_term := ⟨nofun, nofun⟩

/-- A RUN in PH9 and in PH10, and a STEP in PH9. -/
theorem witness_CommandInProgressEndsWithinTheBound :
    (Invariant (running .nop plain) ∧ quiescent (running .nop plain) = false ∧
      (running .nop plain).runState = .running ∧ Phase.nop.code ≤ 9) ∧
    (Invariant (running .trace plain) ∧ quiescent (running .trace plain) = false ∧
      (running .trace plain).runState = .running ∧ 10 ≤ Phase.trace.code) ∧
    (Invariant (stepping .nop plain) ∧ quiescent (stepping .nop plain) = false ∧
      (stepping .nop plain).runState = .stepping) :=
  ⟨⟨running_invariant .nop, rfl, rfl, by decide⟩, ⟨running_invariant .trace, rfl, rfl, by decide⟩,
    ⟨stepping_invariant .nop rfl, rfl, rfl⟩⟩

theorem witness_StepRunsTheInstructionItFinds :
    (quiescent (running .pc plain) = false ∧ (running .pc plain).phase = some .pc) ∧
    (quiescent (presented ready 0x4000000000000000A) = true ∧
      (presented ready 0x4000000000000000A).host = [.command 0x4000000000000000A] ∧
      decodeCommand 0x4000000000000000A = some (.run 10)) ∧
    (quiescent ready = true ∧ ready.host = []) := by decide

theorem witness_GuardAndDispatchStepsRunTheAnswerRows :
    (quiescent (running .nop plain) = false ∧ (running .nop plain).slot = some plain ∧
      (running .nop plain).phase = some .nop) ∧
    (quiescent (running .dispatch plain) = false ∧ (running .dispatch plain).slot = some plain ∧
      (running .dispatch plain).phase = some .dispatch) := by decide

theorem witness_HostChangesAreSeenBetweenCommands :
    (let s := { ready with host := [.poke 1 (2 ^ 64 - 1) 5] };
      quiescent s = true ∧ s.host = [.poke 1 (2 ^ 64 - 1) 5]) ∧
    (let s := { ready with host := [.setRegs [3]] };
      quiescent s = true ∧ s.host = [.setRegs [3]]) ∧
    (let s := { faulted with host := [.setHandler [4]] };
      quiescent s = true ∧ s.host = [.setHandler [4]]) := by decide

theorem witness_EveryStepKeepsTheInvariant :
    Invariant (running .pc plain) ∧ step (running .pc plain) =
      .next { (running .pc plain).ask .nextPc with pc := 0x1004, phase := some .nop } :=
  ⟨running_invariant .pc, rfl⟩

theorem witness_ReachableStatesNeverMissSlotOrPhase : Invariant (running .seq plain) :=
  running_invariant .seq

/-- PC: unchanged, by RUN, by PH8, by CONSTRUCT. -/
theorem witness_PcIsWrittenOnlyByInitAndPcPhase :
    exec .step ready = .next { ready with runState := .stepping, phase := some .fetch } ∧
    exec (.run 0) ready =
      .next { ready.initEffects .running with runmax := 0, runcnt := 0 }.loopCondition ∧
    exec .phPc (stepping .pc plain) =
      .next { (stepping .pc plain).ask .nextPc with pc := 0x1004, phase := some .nop } ∧
    exec (.construct true false) ready = .next (ready.construct true false) :=
  ⟨rfl, rfl, rfl, rfl⟩

/-- SEQ: by PH2, by CONSTRUCT, unchanged. -/
theorem witness_SeqIsWrittenOnlyBySeqPhaseAndConstruct :
    exec .phSeq (stepping .seq plain) = .next { (stepping .seq plain).ask (.setSeqId 5) with
      slot := some (plain.setSeqId 5), seq := 6, phase := some .read } ∧
    exec (.construct true false) ready = .next (ready.construct true false) ∧
    exec .init ready = .next (ready.initEffects .idle) := ⟨rfl, rfl, rfl⟩

/-- NOPCNT: unchanged, zeroed, incremented. -/
theorem witness_NopcntIsWrittenOnlyByInitGuardAndConstruct :
    exec .step ready = .next { ready with runState := .stepping, phase := some .fetch } ∧
    exec .npNonnop ready = .next ready.countProgress ∧
    exec .npNop ready = .next ready.countNoOp := ⟨rfl, rfl, rfl⟩

theorem witness_ConfigurationAndBindingAreWrittenOnlyByTheirCommands :
    exec .step ready = .next { ready with runState := .stepping, phase := some .fetch } := rfl

/-- RUNMAX and RUNCNT: by RUN, by CONSTRUCT, by the return of a step of a RUN. -/
theorem witness_RunCountersAreWrittenOnlyByRunAndReturn :
    exec (.run 7) ready =
      .next { ready.initEffects .running with runmax := 7, runcnt := 0 }.loopCondition ∧
    exec (.construct true false) ready = .next (ready.construct true false) ∧
    exec .npNonnop (running .nop plain) = .next (running .nop plain).countProgress :=
  ⟨rfl, rfl, rfl⟩

/-- An instruction other than PH.MEM, and PH.MEM seen from another memory. -/
theorem witness_MemoryIsWrittenOnlyByTheMemoryPhase :
    (exec .init ready = .next (ready.initEffects .idle) ∧ Instr.init ≠ .phMem) ∧
    (∃ t, exec .phMem (answered (stepping .mem plain) plain) = .next t) ∧
    (2 : Handle) ≠ (answered (stepping .mem plain) plain).memsel :=
  ⟨⟨rfl, by decide⟩, ⟨_, rfl⟩, by decide⟩

/-- Another instruction, and PH.SYSCALL with syscalls ignored. -/
theorem witness_RegisterFileIsWrittenOnlyByWriteBackAndHandler :
    exec .init ready = .next (ready.initEffects .idle) ∧
    (let s := { running .syscall plain with syscallsIgnored := true };
      exec .phSyscall s = .next s.loopCondition ∧ s.syscallsIgnored = true) := ⟨rfl, rfl, rfl⟩

/-- PH.TRACE, and another instruction. -/
theorem witness_TraceGrowsOnlyInTheTracePhase :
    (∃ t, exec .phTrace (answered (running .trace plain) plain) = .next t) ∧
    exec .init ready = .next (ready.initEffects .idle) := ⟨⟨_, rfl⟩, rfl⟩

/-- A phase in progress, a quiescent step without and with a transaction. -/
theorem witness_EachPhaseMakesItsOneTransaction :
    (∃ t, step (running .pc plain) = .next t) ∧ quiescent (running .pc plain) = false ∧
    (running .pc plain).phase = some .pc ∧ step ready = .next ready ∧ quiescent ready = true ∧
    step (presented ready 0x20000000000000000) = .next (ready.initEffects .idle) :=
  ⟨⟨_, rfl⟩, rfl, rfl, rfl, rfl, rfl⟩

theorem witness_FaultIsLeftOnlyByInitRunAndConstruct :
    step (presented faulted 0x20000000000000000) = .next (faulted.initEffects .idle) ∧
    (presented faulted 0x20000000000000000).runState = .fault ∧
    (faulted.initEffects .idle).runState ≠ .fault := ⟨rfl, rfl, by decide⟩

/-- FAULT with a memory bound, and each kind of command from it. -/
theorem witness_CommandsThatLeaveFault :
    faulted.runState = .fault ∧ Instr.init.format = .cmd ∧
    exec .init faulted = .next (faulted.initEffects .idle) ∧
    exec .step faulted = .next (faulted.refuse .inFault) ∧
    exec (.construct false false) faulted = .next (faulted.construct false false) :=
  ⟨rfl, rfl, rfl, rfl, rfl⟩

/-- Both ways into FAULT. -/
theorem witness_FaultIsEnteredOnlyByRunawayOrAbort :
    gives (step { running .nop noop with nopcnt := 10 }) (fun t => t.runState = .fault) = true ∧
    (running .nop noop).runState ≠ .fault ∧
    gives (step (aborted (running .mem plain) plain)) (fun t => t.runState = .fault) = true ∧
    (aborted (running .mem plain) plain).runState ≠ .fault := by decide

theorem witness_SequenceIdsHaveNoGapsOrRepeats :
    noConstructWaits (stepping .seq plain) ∧
    Host.Core.run Sys2Proof.core 1 (stepping .seq plain) =
      .next { (stepping .seq plain).ask (.setSeqId 5) with
        slot := some (plain.setSeqId 5), seq := 6, phase := some .read } :=
  ⟨nofun, rfl⟩

/-- The collaborators of variant 0 and of variant 8 give the same listed answers. -/
theorem witness_VariantIsNeverReadBySequencer :
    let s := answered (running .mem plain) plain
    let s' : State := { s with variant := 8 }
    s.variant ≠ 8 ∧ s.slot = some plain ∧
    startAddressOf s' = startAddressOf s ∧ answerFetch s' = answerFetch s ∧
    answerSyscall s' = answerSyscall s ∧ answerReadSources s' plain = answerReadSources s plain ∧
    answerExecute s' plain = answerExecute s plain ∧
    answerLoadStore s' plain = answerLoadStore s plain ∧
    answerWriteDst s' plain = answerWriteDst s plain ∧
    answerCheckTrap s' plain = answerCheckTrap s plain ∧ textOf s' plain = textOf s plain := by
  decide

theorem witness_HostReadsRegistersByNumberWhileQuiescent :
    quiescent ready = true ∧ quiescent faulted = true ∧ quiescent (running .pc plain) = false := by
  decide

theorem witness_UnusedArgumentBitsAreIgnored : ready.memBound = true := rfl

/-- The highest word and the lowest of a format that decode. -/
theorem witness_DecodeAcceptsExactlyTheWellFormedWords :
    decode .cmd 0x4FFFFFFFFFFFFFFFF = some (.run 0xFFFFFFFFFFFFFFFF) ∧
    decode .ph 1 = some .phFetch := by decide

theorem witness_DecodedInstructionIsTheOneRowItsWordMatches :
    decode .cmd 0x2DEADBEEF00000000 = some .init ∧ decode .tk 0xFF = some (.kOther 0x3F) := by
  decide

end Sys2Proof.Tests
end

section
/-! SUPPORT. VARIANT and the sequencer (spec/30_encoding.md R84): every shared operation commutes with
a change of VARIANT, and so does every instruction whose collaborators answer the same. -/

namespace Sys2Proof.Machine

/-- The state with VARIANT replaced. -/
def State.setVariant (v : Config.Variant) (s : State) : State := { s with variant := v }

/-- The collaborators of `s` answer alike under VARIANT `v`, those that are given the instruction on
the one in the slot. -/
structure AnswersAlike (v : Config.Variant) (s : State) : Prop where
  startAddress : startAddressOf (s.setVariant v) = startAddressOf s
  fetch : answerFetch (s.setVariant v) = answerFetch s
  syscall : answerSyscall (s.setVariant v) = answerSyscall s
  readSources : ∀ i, s.slot = some i → answerReadSources (s.setVariant v) i = answerReadSources s i
  execute : ∀ i, s.slot = some i → answerExecute (s.setVariant v) i = answerExecute s i
  loadStore : ∀ i, s.slot = some i → answerLoadStore (s.setVariant v) i = answerLoadStore s i
  writeDst : ∀ i, s.slot = some i → answerWriteDst (s.setVariant v) i = answerWriteDst s i
  checkTrap : ∀ i, s.slot = some i → answerCheckTrap (s.setVariant v) i = answerCheckTrap s i
  text : ∀ i, s.slot = some i → textOf (s.setVariant v) i = textOf s i

/-- What the host still presents is read by no collaborator. -/
theorem AnswersAlike.setHost {v : Config.Variant} {s : State} (h : AnswersAlike v s)
    (rest : List HostEvent) : AnswersAlike v { s with host := rest } :=
  ⟨h.startAddress, h.fetch, h.syscall, h.readSources, h.execute, h.loadStore, h.writeDst,
    h.checkTrap, h.text⟩

/-! ### The shared operations -/

section
variable (v : Config.Variant) (s : State)

@[simp] theorem State.setVariant_memBound : (s.setVariant v).memBound = s.memBound := rfl
@[simp] theorem State.setVariant_pcValid : (s.setVariant v).pcValid = s.pcValid := rfl
@[simp] theorem State.setVariant_runState : (s.setVariant v).runState = s.runState := rfl
@[simp] theorem State.setVariant_nopcnt : (s.setVariant v).nopcnt = s.nopcnt := rfl
@[simp] theorem State.setVariant_syscallsIgnored :
    (s.setVariant v).syscallsIgnored = s.syscallsIgnored := rfl

@[simp] theorem runContinues_setVariant : runContinues (s.setVariant v) = runContinues s := rfl

theorem State.faultEntry_setVariant (c : FaultCause) :
    (s.setVariant v).faultEntry c = (s.faultEntry c).setVariant v := rfl

/-- INIT's effects read VARIANT through the answer of StartAddress only. -/
theorem State.initEffects_setVariant (rs : RunState)
    (h : startAddressOf (s.setVariant v) = startAddressOf s) :
    (s.setVariant v).initEffects rs = (s.initEffects rs).setVariant v := by
  unfold State.initEffects
  rw [h]
  rfl

theorem State.loopCondition_setVariant :
    (s.setVariant v).loopCondition = s.loopCondition.setVariant v := by
  unfold State.loopCondition
  rw [runContinues_setVariant]
  split <;> rfl

theorem State.returnStep_setVariant :
    (s.setVariant v).returnStep = s.returnStep.setVariant v := by
  unfold State.returnStep
  rw [State.setVariant_runState]
  split <;> rfl

theorem State.countProgress_setVariant :
    (s.setVariant v).countProgress = s.countProgress.setVariant v :=
  State.returnStep_setVariant v { s with nopcnt := 0 }

theorem State.countNoOp_setVariant :
    (s.setVariant v).countNoOp = s.countNoOp.setVariant v := by
  have hreturn := State.returnStep_setVariant v { s with nopcnt := s.nopcnt + 1 }
  unfold State.countNoOp
  rw [State.setVariant_nopcnt]
  dsimp only
  split
  · rfl
  · exact hreturn

theorem State.dispatch_setVariant (tk : TrapCode) :
    (s.setVariant v).dispatch tk = (s.dispatch tk).setVariant v := by
  unfold State.dispatch
  split
  · rfl
  · rfl
  · exact State.loopCondition_setVariant v s

/-- A transaction with the same response commutes when its two continuations do. -/
theorem transact_setVariant {α β : Type} {p : Phase} {r r' : Resp α β} {f f' : α → State}
    {g g' : β → State} (hr : r' = r) (hf : ∀ a, f' a = (f a).setVariant v)
    (hg : ∀ b, g' b = (g b).setVariant v) :
    transact p r' f' g' = mapNext (State.setVariant v) (transact p r f g) := by
  subst hr
  cases r' with
  | answer a => exact congrArg Host.Outcome.next (hf a)
  | abort b => simp only [transact, mapNext, hg, State.faultEntry_setVariant]
  | silent => rfl

/-- A meaning that reads the slot commutes when it does on the instruction in it. -/
theorem withSlot_setVariant {p : Phase} {k k' : Insn → Result}
    (hk : ∀ i, s.slot = some i → k' i = mapNext (State.setVariant v) (k i)) :
    withSlot p (s.setVariant v) k' = mapNext (State.setVariant v) (withSlot p s k) := by
  cases hs : s.slot with
  | none => simp only [withSlot, State.setVariant, hs, mapNext]
  | some i =>
    rw [withSlot_some k hs, withSlot_some k' (s := s.setVariant v) hs]
    exact hk i hs

end

/-! ### The instructions that branch or ask for an answer -/

section
variable {v : Config.Variant} {s : State} (h : AnswersAlike v s)
include h

theorem execInit_setVariant :
    execInit (s.setVariant v) = mapNext (State.setVariant v) (execInit s) := by
  unfold execInit
  rw [State.setVariant_memBound, State.initEffects_setVariant v s _ h.startAddress]
  split <;> rfl

omit h in
theorem execStep_setVariant :
    execStep (s.setVariant v) = mapNext (State.setVariant v) (execStep s) := by
  unfold execStep
  rw [State.setVariant_runState, State.setVariant_memBound, State.setVariant_pcValid]
  split
  · rfl
  · split
    · rfl
    · split <;> rfl

theorem execRun_setVariant (n : Word64) :
    execRun n (s.setVariant v) = mapNext (State.setVariant v) (execRun n s) := by
  unfold execRun
  rw [State.setVariant_memBound, State.initEffects_setVariant v s _ h.startAddress]
  split
  · exact congrArg Host.Outcome.next (State.loopCondition_setVariant v
      { s.initEffects .running with runmax := n, runcnt := 0 })
  · rfl

omit h in
theorem execPhNop_setVariant :
    execPhNop (s.setVariant v) = mapNext (State.setVariant v) (execPhNop s) := by
  refine withSlot_setVariant v s fun i _ => congrArg Host.Outcome.next ?_
  split
  · exact State.countNoOp_setVariant v (s.ask .isNoOp)
  · exact State.countProgress_setVariant v (s.ask .isNoOp)

theorem execPhTrace_setVariant :
    execPhTrace (s.setVariant v) = mapNext (State.setVariant v) (execPhTrace s) := by
  refine withSlot_setVariant v s fun i hs => ?_
  rw [h.text i hs]
  rfl

theorem execPhSyscall_setVariant :
    execPhSyscall (s.setVariant v) = mapNext (State.setVariant v) (execPhSyscall s) := by
  unfold execPhSyscall
  rw [State.setVariant_syscallsIgnored]
  split
  · exact congrArg Host.Outcome.next (State.loopCondition_setVariant v s)
  · exact transact_setVariant v h.syscall
      (fun a => State.loopCondition_setVariant v
        { s.ask .syscallExecute with regs := a.regs, handler := a.handler })
      (fun _ => rfl)

/-- Every instruction reads VARIANT through its collaborators' answers only. -/
theorem exec_setVariant (i : Instr) :
    exec i (s.setVariant v) = mapNext (State.setVariant v) (exec i s) := by
  cases i with
  | construct | bindMemory => rfl
  | init => exact execInit_setVariant h
  | step => exact execStep_setVariant
  | run n => exact execRun_setVariant h n
  | kNotrap | kOther => exact congrArg Host.Outcome.next (State.loopCondition_setVariant v s)
  | kSyscall | kHalt => rfl
  | npNonnop => exact congrArg Host.Outcome.next (State.countProgress_setVariant v s)
  | npNop => exact congrArg Host.Outcome.next (State.countNoOp_setVariant v s)
  | phFetch => exact transact_setVariant v h.fetch (fun _ => rfl) (fun _ => rfl)
  | phSeq | phPc => exact withSlot_setVariant v s fun _ _ => rfl
  | phRead =>
    exact withSlot_setVariant v s fun i hs =>
      transact_setVariant v (h.readSources i hs) (fun _ => rfl) (fun _ => rfl)
  | phExec =>
    exact withSlot_setVariant v s fun i hs =>
      transact_setVariant v (h.execute i hs) (fun _ => rfl) (fun _ => rfl)
  | phMem =>
    exact withSlot_setVariant v s fun i hs =>
      transact_setVariant v (h.loadStore i hs) (fun _ => rfl) (fun _ => rfl)
  | phWb =>
    exact withSlot_setVariant v s fun i hs =>
      transact_setVariant v (h.writeDst i hs) (fun _ => rfl) (fun _ => rfl)
  | phTrap =>
    exact withSlot_setVariant v s fun i hs =>
      transact_setVariant v (h.checkTrap i hs) (fun _ => rfl) (fun _ => rfl)
  | phNop => exact execPhNop_setVariant
  | phTrace => exact execPhTrace_setVariant h
  | phDispatch =>
    exact withSlot_setVariant v s fun i _ =>
      congrArg Host.Outcome.next (State.dispatch_setVariant v (s.ask .trapKind) (trapKindOf i))
  | phSyscall => exact execPhSyscall_setVariant h

/-- A step takes the same branch under every VARIANT, and the instruction it runs commutes; the host's
events are taken without an answer. -/
theorem step_setVariant :
    step (s.setVariant v) = mapNext (State.setVariant v) (step s) := by
  rcases step_cases s with ⟨hq, hh, hs⟩ | ⟨cw, rest, hq, hh, ⟨hd, hs⟩ | ⟨i, hd, hs⟩⟩ |
    ⟨m, a, b, rest, hq, hh, hs⟩ | ⟨r, rest, hq, hh, hs⟩ | ⟨w, rest, hq, hh, hs⟩ |
    ⟨p, hq, hp, hs⟩ | ⟨hq, hp, hs⟩ <;> rw [hs]
  · exact step_wait (s := s.setVariant v) hq hh
  · exact step_reserved (s := s.setVariant v) hq hh hd
  · exact (step_command (s := s.setVariant v) hq hh hd).trans (exec_setVariant (h.setHost rest) i)
  · exact step_poke (s := s.setVariant v) hq hh
  · exact step_setRegs (s := s.setVariant v) hq hh
  · exact step_setHandler (s := s.setVariant v) hq hh
  · exact (step_busy (s := s.setVariant v) hq hp).trans (exec_setVariant h p.instr)
  · exact step_noPhase (s := s.setVariant v) hq hp

end

/-- Settles O48: the hypotheses are `AnswersAlike`, under which a step commutes with the change of
VARIANT. -/
theorem variantIsNeverReadBySequencer : Obligations.VariantIsNeverReadBySequencer := by
  intro s v s' hstart hfetch hsyscall hslot
  simp only [imp_and, forall_and] at hslot
  obtain ⟨hread, hexecute, hloadStore, hwrite, htrap, htext⟩ := hslot
  exact step_setVariant
    ⟨hstart, hfetch, hsyscall, hread, hexecute, hloadStore, hwrite, htrap, htext⟩

end Sys2Proof.Machine
end

section
/-! SUPPORT. The invariant of the sequencer (spec/10_state.md R37, R27). With a command in progress its
clauses other than those on PHASE, the slot and the room left in a run are one predicate,
`InProgress`; one lemma for each way a phase can end (the next phase, a fault, the end of the command,
the loop condition, the return of the step) gives the whole invariant back. -/

namespace Sys2Proof.Machine

section
variable {s t : State}

/-! ### Addresses -/

/-- The clauses of the invariant that bound addresses: by PC and the memory's contents. -/
structure AddressesFit (addrW pc : Nat) (mem : Memory) : Prop where
  addrW_pos : 1 ≤ addrW
  pc_fits : pc < 2 ^ addrW
  mem_wf : mem.wf
  mem_fits : ∀ c ∈ mem, keyAddress c.1 < 2 ^ addrW

namespace AddressesFit

variable {addrW pc : Nat} {mem : Memory} (h : AddressesFit addrW pc mem)
include h

/-- Every value the port cuts can be PC. -/
theorem setPc (a : Nat) : AddressesFit addrW (a % 2 ^ addrW) mem :=
  { h with pc_fits := Nat.mod_lt _ (Nat.two_pow_pos addrW) }

/-- The host writes a byte under an address that the port cuts. -/
theorem write (hd : Handle) (a : Nat) (b : Byte) :
    AddressesFit addrW pc (mem.write hd (a % 2 ^ addrW) b) :=
  { h with
    mem_wf := Memory.write_wf hd _ b h.mem_wf
    mem_fits := fun c hc => by
      rcases Memory.mem_write c hc with hc | hc
      · exact hc ▸ Nat.mod_lt _ (Nat.two_pow_pos addrW)
      · exact h.mem_fits c hc }

theorem storeAll (hd : Handle) (stores : List Store) :
    AddressesFit addrW pc (mem.storeAll hd addrW stores) :=
  { h with
    mem_wf := Memory.storeAll_wf hd addrW stores h.mem_wf
    mem_fits := Memory.storeAll_fits hd addrW stores h.mem_fits }

end AddressesFit

theorem Invariant.addresses (h : Invariant s) : AddressesFit s.addrW s.pc s.mem :=
  ⟨h.addrW_pos, h.pc_fits, h.mem_wf, h.mem_fits⟩

/-- The invariant on other contents of the memory. -/
theorem Invariant.setMem (h : Invariant s) {mem : Memory} (ha : AddressesFit s.addrW s.pc mem) :
    Invariant { s with mem := mem } :=
  { h with mem_wf := ha.mem_wf, mem_fits := ha.mem_fits }

/-! ### A command in progress -/

/-- TERM of a state that is not FAULT. -/
def Term.normal (tm : Term) : Prop := tm ≠ .runaway ∧ tm ≠ .collabFault

theorem FaultCause.term_abnormal (c : FaultCause) :
    c.term = .runaway ∨ c.term = .collabFault := by
  cases c with
  | runaway => exact .inl rfl
  | collab p => exact .inr rfl

theorem FaultCause.fphase_isSome_iff (c : FaultCause) :
    c.fphase.isSome = true ↔ c.term = .collabFault := by
  cases c with
  | runaway => exact ⟨nofun, nofun⟩
  | collab p => exact ⟨fun _ => rfl, fun _ => rfl⟩

/-- A state in IDLE meets the invariant when TERM is not a fault's. -/
theorem AddressesFit.idle_invariant (ha : AddressesFit s.addrW s.pc s.mem)
    (hnopcnt : s.nopcnt.toNat ≤ 10) (hcnt : s.runcnt.toNat ≤ s.runmax.toNat)
    (hvalid : s.pcValid = true → s.memBound = true) (hs : s.runState = .idle)
    (hp : s.phase = none) (hterm : s.term.normal) (hfphase : s.fphase = none) : Invariant s where
  addrW_pos := ha.addrW_pos
  pc_fits := ha.pc_fits
  mem_wf := ha.mem_wf
  mem_fits := ha.mem_fits
  nopcnt_le := by omega
  nopcnt_limit := fun h11 => by omega
  runcnt_le := hcnt
  run_room := by simp [hs]
  phase_quiescent := by simp [quiescent, hs, hp]
  stepping_phase := by simp [hs]
  busy_ready := by simp [quiescent, hs]
  fault_bound := by simp [hs]
  pcValid_bound := hvalid
  slot_held := by simp [hp]
  fault_term := by simp [hs, hterm.1, hterm.2]
  running_term := by simp [hs]
  fphase_term := by simp [hfphase, hterm.2]

/-- What the invariant says with a command in progress, whatever its phase. -/
structure InProgress (s : State) : Prop where
  addresses : AddressesFit s.addrW s.pc s.mem
  nopcnt_le : s.nopcnt.toNat ≤ 10
  runcnt_le : s.runcnt.toNat ≤ s.runmax.toNat
  memBound : s.memBound = true
  pcValid : s.pcValid = true
  busy : s.runState = .stepping ∨ s.runState = .running
  term : s.term.normal
  running_term : s.runState = .running → s.term = .none
  fphase : s.fphase = none

theorem not_fault_of_busy (h : s.runState = .stepping ∨ s.runState = .running) :
    s.runState ≠ .fault := by
  rcases h with h | h <;> rw [h] <;> exact nofun

/-- A phase is set only with a command in progress. -/
theorem Invariant.busy (h : Invariant s) {p : Phase} (hp : s.phase = some p) :
    quiescent s = false := by
  rw [Bool.eq_false_iff, Ne, h.phase_quiescent, hp]
  exact nofun

theorem Invariant.not_fault_term (h : Invariant s) (hf : s.runState ≠ .fault) : s.term.normal :=
  not_or.mp fun ht => hf (h.fault_term.mpr ht)

theorem Invariant.not_fault_fphase (h : Invariant s) (hf : s.runState ≠ .fault) :
    s.fphase = none := by
  have hsome : ¬ s.fphase.isSome = true := fun hs => (h.not_fault_term hf).2 (h.fphase_term.mp hs)
  simpa using hsome

/-- Outside FAULT NOPCNT is within its limit. -/
theorem Invariant.not_fault_nopcnt (h : Invariant s) (hf : s.runState ≠ .fault) :
    s.nopcnt.toNat ≤ 10 := by
  have hle := h.nopcnt_le
  have hne : s.nopcnt.toNat ≠ 11 := fun h11 => hf (h.nopcnt_limit h11).1
  omega

theorem Invariant.inProgress (h : Invariant s) {p : Phase} (hp : s.phase = some p) :
    InProgress s := by
  have hq := h.busy hp
  have hbusy := (busy_iff s).mp hq
  have hf := not_fault_of_busy hbusy
  obtain ⟨hbound, hvalid⟩ := h.busy_ready hq
  exact { h with
    addresses := h.addresses
    nopcnt_le := h.not_fault_nopcnt hf
    memBound := hbound
    pcValid := hvalid
    busy := hbusy
    term := h.not_fault_term hf
    fphase := h.not_fault_fphase hf }

namespace InProgress

/-- A command in progress meets the invariant when its phase does. -/
theorem invariant {p : Phase} (h : InProgress s) (hp : s.phase = some p)
    (hslot : p ≠ .fetch → s.slot.isSome = true)
    (hstep : s.runState = .stepping → inStep (some p) = true)
    (hroom : s.runState = .running → inStep (some p) = true → s.runcnt.toNat < s.runmax.toNat) :
    Invariant s := by
  have hq : quiescent s = false := (busy_iff s).mpr h.busy
  have hf := not_fault_of_busy h.busy
  have hnopcnt := h.nopcnt_le
  exact { h with
    addrW_pos := h.addresses.addrW_pos
    pc_fits := h.addresses.pc_fits
    mem_wf := h.addresses.mem_wf
    mem_fits := h.addresses.mem_fits
    nopcnt_le := by omega
    nopcnt_limit := fun h11 => by omega
    run_room := hp ▸ hroom
    phase_quiescent := by simp [hq, hp]
    stepping_phase := hp ▸ hstep
    busy_ready := fun _ => ⟨h.memBound, h.pcValid⟩
    fault_bound := fun _ => h.memBound
    pcValid_bound := fun _ => h.memBound
    slot_held := fun q hq hne => hslot (by rw [hp] at hq; cases hq; exact hne)
    fault_term := ⟨fun hs => absurd hs hf, fun ht => absurd ht (not_or.mpr h.term)⟩
    fphase_term := by simp [h.fphase, h.term.2] }

/-- A fault of the phase in progress, which may have counted a no-op up to 11. -/
theorem faultEntry (h : InProgress s) (c : FaultCause) (n : BitVec 32) (hn : n.toNat ≤ 11)
    (hc : n.toNat = 11 → c = .runaway) :
    Invariant ({ s with nopcnt := n }.faultEntry c) where
  addrW_pos := h.addresses.addrW_pos
  pc_fits := h.addresses.pc_fits
  mem_wf := h.addresses.mem_wf
  mem_fits := h.addresses.mem_fits
  nopcnt_le := hn
  nopcnt_limit := fun h11 => by rw [hc h11]; exact ⟨rfl, rfl⟩
  runcnt_le := h.runcnt_le
  run_room := nofun
  phase_quiescent := ⟨fun _ => rfl, fun _ => rfl⟩
  stepping_phase := nofun
  busy_ready := nofun
  fault_bound := fun _ => h.memBound
  pcValid_bound := fun _ => h.memBound
  slot_held := nofun
  fault_term := ⟨fun _ => c.term_abnormal, fun _ => rfl⟩
  running_term := nofun
  fphase_term := c.fphase_isSome_iff

/-- The abort of the phase's transaction. -/
theorem abort {p : Phase} (h : InProgress s) : Invariant (s.faultEntry (.collab p)) := by
  have hnopcnt := h.nopcnt_le
  exact h.faultEntry (.collab p) s.nopcnt (by omega) fun h11 => by omega

/-- The end of the command, with a TERM that is not a fault's. -/
theorem finish (h : InProgress s) {tm : Term} (htm : tm.normal) :
    Invariant { s with term := tm, runState := .idle, phase := none } :=
  h.addresses.idle_invariant (s := { s with term := tm, runState := .idle, phase := none })
    h.nopcnt_le h.runcnt_le (fun _ => h.memBound) rfl rfl htm h.fphase

theorem haltRun (h : InProgress s) : Invariant s.haltRun := h.finish ⟨nofun, nofun⟩

/-- The loop condition opens the next step of a run only with room for it. -/
theorem loopCondition (h : InProgress s) : Invariant s.loopCondition := by
  rcases s.loopCondition_cases with ⟨hroom, heq⟩ | ⟨_, heq⟩ <;> rw [heq]
  · exact invariant (p := .fetch) { h with } rfl (fun hne => absurd rfl hne) (fun _ => rfl)
      (fun _ _ => hroom)
  · exact h.finish ⟨nofun, nofun⟩

/-- The return of a step of a run counts it, which the room left for it allows. -/
theorem returnStep (h : InProgress s) (hslot : s.slot.isSome = true)
    (hroom : s.runState = .running → s.runcnt.toNat < s.runmax.toNat) :
    Invariant s.returnStep := by
  rcases s.returnStep_cases with ⟨hrun, heq⟩ | ⟨_, heq⟩ <;> rw [heq]
  · have hcount : (s.runcnt + 1).toNat ≤ s.runmax.toNat := by
      have hlt := hroom hrun
      bv_omega
    exact invariant (p := .trace) { h with runcnt_le := hcount } rfl (fun _ => hslot)
      (fun hs => absurd (hrun.symm.trans hs) nofun) nofun
  · exact finish (s := { s with record := s.slot.map s.recordOf }) { h with } h.term

theorem countProgress (h : InProgress s) (hslot : s.slot.isSome = true)
    (hroom : s.runState = .running → s.runcnt.toNat < s.runmax.toNat) :
    Invariant s.countProgress :=
  returnStep (s := { s with nopcnt := 0 }) { h with nopcnt_le := Nat.zero_le 10 } hslot hroom

/-- A no-op is counted: the step returns within the limit, and faults with NOPCNT 11 above it. -/
theorem countNoOp (h : InProgress s) (hslot : s.slot.isSome = true)
    (hroom : s.runState = .running → s.runcnt.toNat < s.runmax.toNat) :
    Invariant s.countNoOp := by
  have hle : (s.nopcnt + 1).toNat ≤ 11 := by
    have hnopcnt := h.nopcnt_le
    bv_omega
  rcases s.countNoOp_cases with ⟨_, heq⟩ | ⟨hlimit, heq⟩ <;> rw [heq]
  · exact h.faultEntry .runaway _ hle fun _ => rfl
  · exact returnStep (s := { s with nopcnt := s.nopcnt + 1 }) { h with nopcnt_le := hlimit } hslot
      hroom

end InProgress

/-- The next phase of the same step, or of the same turn of the run loop, with an instruction in the
slot. -/
theorem Invariant.advance (h : Invariant s) {p q : Phase} (hp : s.phase = some p)
    (hq : t.phase = some q) (hpq : inStep (some q) = inStep (some p)) (hslot : t.slot.isSome = true)
    (hrun : (t.runState, t.runcnt, t.runmax) = (s.runState, s.runcnt, s.runmax))
    (ht : InProgress t) : Invariant t := by
  obtain ⟨hstate, hcnt, hmax⟩ : _ ∧ _ ∧ _ := by simpa only [Prod.mk.injEq] using hrun
  have hstep := h.stepping_phase
  have hroom := h.run_room
  rw [hp, ← hpq, ← hstate] at hstep hroom
  rw [← hcnt, ← hmax] at hroom
  exact ht.invariant hq (fun _ => hslot) hstep hroom

/-! ### The phases -/

/-- A phase keeps the invariant: it goes on to the next phase, aborts, or ends as PH9, PH11 and PH12
do. -/
theorem Ran.invariant_of_phase {p : Phase} (hr : Ran p.instr s t) (h : Invariant s)
    (hp : s.phase = some p) : Invariant t := by
  have hs := h.inProgress hp
  cases p with
  | fetch =>
    cases hr with
    | fetch => exact h.advance hp rfl rfl rfl rfl { hs with }
    | fetchAbort => exact InProgress.abort { hs with }
  | seq => cases hr with | seq => exact h.advance hp rfl rfl rfl rfl { hs with }
  | read =>
    cases hr with
    | read => exact h.advance hp rfl rfl rfl rfl { hs with }
    | readAbort => exact InProgress.abort { hs with }
  | exec =>
    cases hr with
    | execute => exact h.advance hp rfl rfl rfl rfl { hs with }
    | executeAbort => exact InProgress.abort { hs with }
  | mem =>
    cases hr with
    | loadStore =>
      exact h.advance hp rfl rfl rfl rfl { hs with addresses := hs.addresses.storeAll _ _ }
    | loadStoreAbort => exact InProgress.abort { hs with addresses := hs.addresses.storeAll _ _ }
  | wb =>
    cases hr with
    | writeDst _ i _ hslot =>
      exact h.advance hp rfl rfl (Option.isSome_of_eq_some hslot) rfl { hs with }
    | writeDstAbort => exact InProgress.abort { hs with }
  | trap =>
    cases hr with
    | checkTrap => exact h.advance hp rfl rfl rfl rfl { hs with }
    | checkTrapAbort => exact InProgress.abort { hs with }
  | pc =>
    cases hr with
    | pc _ i hslot =>
      exact h.advance hp rfl rfl (Option.isSome_of_eq_some hslot) rfl
        { hs with addresses := hs.addresses.setPc i.nextPc }
  | nop =>
    have hroom : s.runState = .running → s.runcnt.toNat < s.runmax.toNat :=
      fun hrun => h.run_room hrun (by rw [hp]; rfl)
    cases hr with
    | nopNoOp _ i hslot =>
      exact InProgress.countNoOp (s := s.ask .isNoOp) { hs with }
        (Option.isSome_of_eq_some hslot) hroom
    | nopProgress _ i hslot =>
      exact InProgress.countProgress (s := s.ask .isNoOp) { hs with }
        (Option.isSome_of_eq_some hslot) hroom
  | trace =>
    cases hr with
    | trace _ i hslot =>
      exact h.advance hp rfl rfl (Option.isSome_of_eq_some hslot) rfl { hs with }
  | dispatch =>
    cases hr with
    | dispatch _ i hslot =>
      rcases (s.ask .trapKind).dispatch_cases i.trapKind with ⟨_, heq⟩ | ⟨_, heq⟩ | ⟨_, heq⟩ <;>
        rw [heq]
      · exact InProgress.loopCondition { hs with }
      · exact h.advance hp rfl rfl (Option.isSome_of_eq_some hslot) rfl { hs with }
      · exact InProgress.haltRun { hs with }
  | syscall =>
    cases hr with
    | syscallIgnored => exact hs.loopCondition
    | syscall => exact InProgress.loopCondition { hs with }
    | syscallAbort => exact InProgress.abort { hs with }

/-! ### The commands -/

/-- A host command word names a row of format CMD. -/
theorem decodeCommand_format {cw : CommandWord} {i : Instr} (h : decodeCommand cw = some i) :
    i.format = .cmd := by
  unfold decodeCommand at h
  split at h <;> cases h <;> rfl

theorem Invariant.construct (h : Invariant s) (l g : Bool) : Invariant (s.construct l g) :=
  (h.addresses.setPc _).idle_invariant (s := s.construct l g) (Nat.zero_le 10) (Nat.le_refl 0)
    nofun rfl rfl ⟨nofun, nofun⟩ rfl

/-- What the host presents and ERR stand in no clause. -/
theorem Invariant.setHostErr (h : Invariant s) (rest : List HostEvent) (e : Err) :
    Invariant { s with host := rest, err := e } :=
  { h with }

/-- A command accepted or refused while quiescent keeps the invariant. -/
theorem Ran.invariant_of_command {i : Instr} (hr : Ran i s t) (hi : i.format = .cmd)
    (h : Invariant s) (hq : quiescent s = true) : Invariant t := by
  have hphase : s.phase = none := h.phase_quiescent.mp hq
  cases hr with
  | construct l g => exact h.construct l g
  | bindMemory hd =>
    exact { h with
      busy_ready := fun hb => absurd (hq.symm.trans hb) nofun
      fault_bound := fun _ => rfl
      pcValid_bound := fun _ => rfl }
  | initRefused | stepRefused | runRefused => exact h.setHostErr s.host _
  | init _ hb =>
    exact (h.addresses.setPc _).idle_invariant (s := s.initEffects .idle) (Nat.zero_le 10)
      h.runcnt_le (fun _ => hb) rfl hphase ⟨nofun, nofun⟩ rfl
  | step _ hf hb hv =>
    have hs : InProgress { s with
        runState := .stepping, err := .ok, phase := some .fetch, record := none } :=
      { addresses := h.addresses
        nopcnt_le := h.not_fault_nopcnt hf
        runcnt_le := h.runcnt_le
        memBound := hb
        pcValid := hv
        busy := .inl rfl
        term := h.not_fault_term hf
        running_term := nofun
        fphase := h.not_fault_fphase hf }
    exact hs.invariant rfl (fun hne => absurd rfl hne) (fun _ => rfl) nofun
  | run n _ hb =>
    have hs : InProgress { s.initEffects .running with runmax := n, runcnt := 0 } :=
      { addresses := h.addresses.setPc _
        nopcnt_le := Nat.zero_le 10
        runcnt_le := Nat.zero_le _
        memBound := hb
        pcValid := rfl
        busy := .inr rfl
        term := ⟨nofun, nofun⟩
        running_term := fun _ => rfl
        fphase := rfl }
    exact hs.loopCondition
  | _ => cases hi

end

/-! ### The step -/

/-- Settles O32: a step waits, takes a change of the world or a reserved opcode from the host, runs a
command while quiescent, or runs the phase in progress. -/
theorem everyStepKeepsTheInvariant : Obligations.EveryStepKeepsTheInvariant := by
  intro s t h ht
  rcases step_cases s with ⟨hq, hh, hs⟩ | ⟨cw, rest, hq, hh, ⟨hd, hs⟩ | ⟨i, hd, hs⟩⟩ |
    ⟨m, a, b, rest, hq, hh, hs⟩ | ⟨r, rest, hq, hh, hs⟩ | ⟨w, rest, hq, hh, hs⟩ |
    ⟨p, hq, hp, hs⟩ | ⟨hq, hp, hs⟩ <;> rw [hs] at ht
  · cases ht; exact h
  · cases ht; exact h.setHostErr rest .badCmd
  · exact (exec_ran ht).invariant_of_command (decodeCommand_format hd) (h.setHostErr rest s.err) hq
  · cases ht
    exact (h.setHostErr rest s.err).setMem (h.addresses.write m a b)
  · cases ht; exact { h with }
  · cases ht; exact { h with }
  · exact (exec_ran ht).invariant_of_phase h hp
  · cases ht

/-! ### The steps that have no next state -/

/-- A command always has a next state. -/
theorem exec_command_next {i : Instr} (hi : i.format = .cmd) (s : State) :
    ∃ t, exec i s = .next t := by
  cases i with
  | construct | bindMemory => exact ⟨_, rfl⟩
  | init | run => simp only [exec, execInit, execRun]; split <;> exact ⟨_, rfl⟩
  | step =>
    simp only [exec, execStep]
    split
    · exact ⟨_, rfl⟩
    · split
      · exact ⟨_, rfl⟩
      · split <;> exact ⟨_, rfl⟩
  | _ => cases hi

/-- An outcome that is a next state, or the stop of phase `p` at a collaborator that never answers. -/
def NextOrSilent (p : Phase) (r : Result) : Prop :=
  (∃ t, r = .next t) ∨ r = .fault (.noAnswer p)

theorem transact_nextOrSilent {α β : Type} (p : Phase) (r : Resp α β) (f : α → State)
    (g : β → State) : NextOrSilent p (transact p r f g) := by
  cases r with
  | answer | abort => exact .inl ⟨_, rfl⟩
  | silent => exact .inr rfl

theorem withSlot_nextOrSilent {p : Phase} {s : State} {k : Insn → Result}
    (hslot : s.slot.isSome = true) (hk : ∀ i, NextOrSilent p (k i)) : NextOrSilent p (withSlot p s k) := by
  obtain ⟨i, hi⟩ := Option.isSome_iff_exists.mp hslot
  rw [withSlot_some k hi]
  exact hk i

/-- A phase that finds an instruction in the slot, or is PH1, stops on silence only. -/
theorem exec_phase_nextOrSilent (p : Phase) (s : State)
    (hslot : p ≠ .fetch → s.slot.isSome = true) : NextOrSilent p (exec p.instr s) := by
  cases p with
  | fetch => exact transact_nextOrSilent ..
  | seq | pc | nop | trace | dispatch =>
    exact withSlot_nextOrSilent (hslot nofun) fun _ => .inl ⟨_, rfl⟩
  | read | exec | mem | wb | trap =>
    exact withSlot_nextOrSilent (hslot nofun) fun _ => transact_nextOrSilent ..
  | syscall =>
    simp only [Phase.instr, exec, execPhSyscall]
    split
    · exact .inl ⟨_, rfl⟩
    · exact transact_nextOrSilent ..

/-- Settles O33: commands have a next state, the phase in progress finds the slot it needs, and PHASE is
not 0 with a command in progress. -/
theorem reachableStatesNeverMissSlotOrPhase : Obligations.ReachableStatesNeverMissSlotOrPhase := by
  intro s h
  rcases step_cases s with ⟨hq, hh, hs⟩ | ⟨cw, rest, hq, hh, ⟨hd, hs⟩ | ⟨i, hd, hs⟩⟩ |
    ⟨m, a, b, rest, hq, hh, hs⟩ | ⟨r, rest, hq, hh, hs⟩ | ⟨w, rest, hq, hh, hs⟩ |
    ⟨p, hq, hp, hs⟩ | ⟨hq, hp, hs⟩ <;> rw [hs]
  · exact .inl ⟨_, rfl⟩
  · exact .inl ⟨_, rfl⟩
  · exact .inl (exec_command_next (decodeCommand_format hd) _)
  · exact .inl ⟨_, rfl⟩
  · exact .inl ⟨_, rfl⟩
  · exact .inl ⟨_, rfl⟩
  · exact (exec_phase_nextOrSilent p s (h.slot_held p hp)).imp_right fun hsilent => ⟨p, hsilent⟩
  · exact absurd (hq.symm.trans (h.phase_quiescent.mpr hp)) nofun

/-- Settles O2. -/
theorem resetMeetsTheInvariant : Obligations.ResetMeetsTheInvariant := by
  have haddresses : AddressesFit State.reset.addrW State.reset.pc State.reset.mem :=
    ⟨by decide, by decide, List.Pairwise.nil, nofun⟩
  exact haddresses.idle_invariant (by decide) (by decide) nofun rfl rfl ⟨nofun, nofun⟩ rfl

end Sys2Proof.Machine
end

section
/-! SUPPORT. Which instructions write each register (spec/10_state.md R21 to R28, R32). Every statement is
a case split over `Ran`, all an instruction can have done: the cases that write the register are named,
in the others the `@[simp]` lemmas of the state's operations leave it alone. -/

namespace Sys2Proof.Machine

/-! ### PC, SEQ and NOPCNT -/

/-- Settles O34. -/
theorem pcIsWrittenOnlyByInitAndPcPhase : Obligations.PcIsWrittenOnlyByInitAndPcPhase := by
  intro i s t h
  cases exec_ran h with
  | construct l g => exact .inr (.inr (.inr ⟨l, g, rfl⟩))
  | init => exact .inr (.inl ⟨.inl rfl, rfl⟩)
  | run n => exact .inr (.inl ⟨.inr ⟨n, rfl⟩, by simp⟩)
  | pc _ k hk => exact .inr (.inr (.inl ⟨rfl, k, hk, rfl⟩))
  | _ => exact .inl (by simp)

/-- Settles O35. -/
theorem seqIsWrittenOnlyBySeqPhaseAndConstruct :
    Obligations.SeqIsWrittenOnlyBySeqPhaseAndConstruct := by
  intro i s t h
  cases exec_ran h with
  | seq => exact .inl ⟨rfl, rfl⟩
  | construct l g => exact .inr (.inl ⟨⟨l, g, rfl⟩, rfl⟩)
  | _ => exact .inr (.inr ⟨nofun, nofun, by simp⟩)

/-- Settles O36. -/
theorem nopcntIsWrittenOnlyByInitGuardAndConstruct :
    Obligations.NopcntIsWrittenOnlyByInitGuardAndConstruct := by
  intro i s t h
  cases exec_ran h with
  | init => exact .inr (.inl ⟨rfl, .inl rfl⟩)
  | run n => exact .inr (.inl ⟨by simp, .inr (.inl ⟨n, rfl⟩)⟩)
  | construct l g => exact .inr (.inl ⟨rfl, .inr (.inr (.inl ⟨l, g, rfl⟩))⟩)
  | nopProgress => exact .inr (.inl ⟨by simp, .inr (.inr (.inr (.inl rfl)))⟩)
  | npNonnop => exact .inr (.inl ⟨by simp, .inr (.inr (.inr (.inr rfl)))⟩)
  | nopNoOp => exact .inr (.inr ⟨by simp, .inl rfl⟩)
  | npNop => exact .inr (.inr ⟨by simp, .inr rfl⟩)
  | _ => exact .inl (by simp)

/-! ### The configuration and the binding -/

section
variable {s t : State} {i : Instr}

/-- CFG is read from its two flags alone. -/
theorem cfgWord_congr (hl : t.logEnabled = s.logEnabled)
    (hg : t.syscallsIgnored = s.syscallsIgnored) : cfgWord t = cfgWord s := by
  unfold cfgWord
  rw [hl, hg]

theorem Ran.cfgWord_eq (hr : Ran i s t) (hc : ∀ l g, i ≠ .construct l g) :
    cfgWord t = cfgWord s := by
  cases hr with
  | construct l g => exact absurd rfl (hc l g)
  | _ => exact cfgWord_congr (by simp) (by simp)

theorem Ran.binding_eq (hr : Ran i s t) (hc : ∀ l g, i ≠ .construct l g)
    (hb : ∀ h, i ≠ .bindMemory h) : t.memsel = s.memsel ∧ t.memBound = s.memBound := by
  cases hr with
  | construct l g => exact absurd rfl (hc l g)
  | bindMemory h => exact absurd rfl (hb h)
  | _ => exact ⟨by simp, by simp⟩

theorem Ran.pcValid_eq (hr : Ran i s t) (hc : ∀ l g, i ≠ .construct l g)
    (hb : ∀ h, i ≠ .bindMemory h) (hi : i ≠ .init) (hn : ∀ n, i ≠ .run n) :
    t.pcValid = s.pcValid := by
  cases hr with
  | construct l g => exact absurd rfl (hc l g)
  | bindMemory h => exact absurd rfl (hb h)
  | init => exact absurd rfl hi
  | run n => exact absurd rfl (hn n)
  | _ => simp

/-- The parameters and the collaborators' answers are no instruction's to write. -/
theorem Ran.sameMachine (hr : Ran i s t) : sameMachine s t := by
  cases hr with
  | _ => exact ⟨by simp, by simp, by simp⟩

end

/-- Settles O37. -/
theorem configurationAndBindingAreWrittenOnlyByTheirCommands :
    Obligations.ConfigurationAndBindingAreWrittenOnlyByTheirCommands := by
  intro i s t h
  have hr := exec_ran h
  exact ⟨hr.cfgWord_eq, hr.binding_eq, hr.pcValid_eq, hr.sameMachine⟩

/-! ### The counters of a run -/

section
variable {s t : State} {i : Instr}

/-- RUNCNT is unchanged, or one more after the return of a step of a RUN. -/
def CountsReturn (s t : State) : Prop :=
  t.runcnt = s.runcnt ∨
    (t.runcnt = s.runcnt + 1 ∧ s.runState = .running ∧ t.runState = .running)

theorem State.returnStep_countsReturn (s : State) : CountsReturn s s.returnStep := by
  rcases s.returnStep_cases with ⟨hrun, heq⟩ | ⟨_, heq⟩ <;> rw [heq]
  · exact .inr ⟨rfl, hrun, hrun⟩
  · exact .inl rfl

theorem State.countProgress_countsReturn (s : State) : CountsReturn s s.countProgress :=
  State.returnStep_countsReturn { s with nopcnt := 0 }

theorem State.countNoOp_countsReturn (s : State) : CountsReturn s s.countNoOp := by
  rcases s.countNoOp_cases with ⟨_, heq⟩ | ⟨_, heq⟩ <;> rw [heq]
  · exact .inl rfl
  · exact State.returnStep_countsReturn { s with nopcnt := s.nopcnt + 1 }

theorem Ran.runmax_cases (hr : Ran i s t) :
    t.runmax = s.runmax ∨ (∃ n, i = .run n ∧ t.runmax = n) ∨
      ∃ l g, i = .construct l g ∧ t.runmax = 0 := by
  cases hr with
  | run n => exact .inr (.inl ⟨n, rfl, by simp⟩)
  | construct l g => exact .inr (.inr ⟨l, g, rfl, rfl⟩)
  | _ => exact .inl (by simp)

theorem Ran.runcnt_cases (hr : Ran i s t) :
    t.runcnt = s.runcnt ∨ (t.runcnt = 0 ∧ ((∃ n, i = .run n) ∨ ∃ l g, i = .construct l g)) ∨
      (t.runcnt = s.runcnt + 1 ∧ s.runState = .running ∧ t.runState = .running ∧
        (i = .phNop ∨ i = .npNop ∨ i = .npNonnop)) := by
  cases hr with
  | run n => exact .inr (.inl ⟨by simp, .inl ⟨n, rfl⟩⟩)
  | construct l g => exact .inr (.inl ⟨rfl, .inr ⟨l, g, rfl⟩⟩)
  | nopNoOp =>
    exact (State.countNoOp_countsReturn (s.ask .isNoOp)).imp_right
      fun ⟨hcnt, hs, ht⟩ => .inr ⟨hcnt, hs, ht, .inl rfl⟩
  | nopProgress =>
    exact (State.countProgress_countsReturn (s.ask .isNoOp)).imp_right
      fun ⟨hcnt, hs, ht⟩ => .inr ⟨hcnt, hs, ht, .inl rfl⟩
  | npNop =>
    exact s.countNoOp_countsReturn.imp_right
      fun ⟨hcnt, hs, ht⟩ => .inr ⟨hcnt, hs, ht, .inr (.inl rfl)⟩
  | npNonnop =>
    exact s.countProgress_countsReturn.imp_right
      fun ⟨hcnt, hs, ht⟩ => .inr ⟨hcnt, hs, ht, .inr (.inr rfl)⟩
  | _ => exact .inl (by simp)

end

/-- Settles O38. -/
theorem runCountersAreWrittenOnlyByRunAndReturn :
    Obligations.RunCountersAreWrittenOnlyByRunAndReturn := by
  intro i s t h
  exact ⟨(exec_ran h).runmax_cases, (exec_ran h).runcnt_cases⟩

/-! ### The register file and the handler's state -/

section
variable {s t : State} {i : Instr}

/-- PH12 with syscalls enabled is the exception of both statements below. -/
theorem syscall_enabled_elim (hg : s.syscallsIgnored = false)
    (h : Instr.phSyscall ≠ .phSyscall ∨ s.syscallsIgnored = true) : False := by
  simp [hg] at h

theorem Ran.regs_eq (hr : Ran i s t) (hw : i ≠ .phWb)
    (hsys : i ≠ .phSyscall ∨ s.syscallsIgnored = true) : t.regs = s.regs := by
  cases hr with
  | writeDst | writeDstAbort => exact absurd rfl hw
  | syscall _ _ hg | syscallAbort _ _ hg => exact (syscall_enabled_elim hg hsys).elim
  | _ => simp

theorem Ran.handler_eq (hr : Ran i s t) (hsys : i ≠ .phSyscall ∨ s.syscallsIgnored = true) :
    t.handler = s.handler := by
  cases hr with
  | syscall _ _ hg | syscallAbort _ _ hg => exact (syscall_enabled_elim hg hsys).elim
  | _ => simp

end

/-- Settles O40. -/
theorem registerFileIsWrittenOnlyByWriteBackAndHandler :
    Obligations.RegisterFileIsWrittenOnlyByWriteBackAndHandler := by
  intro i s t h
  exact ⟨(exec_ran h).regs_eq, (exec_ran h).handler_eq⟩

end Sys2Proof.Machine
end

section
/-! SUPPORT. The registers as the host reads them (spec/10_state.md R24, R27, R29) and their values after
reset (R38). -/

namespace Sys2Proof.Machine

open BitVec (extractLsb'_append_eq_of_le extractLsb'_append_eq_of_add_le getElem_append)

/-- Every field of STATUS stands at its bits: a read drops the fields below it, one width at a time, and
ends inside it. -/
theorem statusWord_fields (s : State) :
    (statusWord s).extractLsb' 0 4 = stateCode s.runState ∧
    (statusWord s).extractLsb' 4 4 = phaseCode s.phase ∧
    (statusWord s).getLsbD 8 = s.memBound ∧ (statusWord s).getLsbD 9 = s.pcValid ∧
    (statusWord s).extractLsb' 10 3 = termCode s.term ∧
    (statusWord s).extractLsb' 13 3 = errCode s.err ∧
    (statusWord s).extractLsb' 16 4 = phaseCode s.fphase ∧
    (statusWord s).extractLsb' 20 12 = 0 := by
  unfold statusWord
  simp [extractLsb'_append_eq_of_le (w := 4), extractLsb'_append_eq_of_le (w := 3),
    extractLsb'_append_eq_of_le (w := 1), extractLsb'_append_eq_of_add_le (w := 4),
    extractLsb'_append_eq_of_add_le (w := 3), getElem_append (m := 4), getElem_append (m := 1)]

theorem cfgWord_fields (s : State) :
    (cfgWord s).getLsbD 0 = s.logEnabled ∧ (cfgWord s).getLsbD 1 = s.syscallsIgnored ∧
    (cfgWord s).extractLsb' 2 30 = 0 := by
  unfold cfgWord
  simp [extractLsb'_append_eq_of_le (w := 1), getElem_append (m := 1)]

/-- Settles O49: the fields of the two words, and the codes of R27 listed. -/
theorem statusAndConfigurationLayout : Obligations.StatusAndConfigurationLayout := by
  refine ⟨fun s => ?_, rfl, rfl, rfl, rfl, fun _ => rfl⟩
  obtain ⟨hstate, hphase, hbound, hvalid, hterm, herr, hfphase, hrest⟩ := statusWord_fields s
  exact ⟨hstate, hphase, hbound, hvalid, hterm, herr, hfphase, hrest, cfgWord_fields s⟩

/-- While quiescent the host reads what R29 lists. -/
theorem hostRead_quiescent {s : State} (hq : quiescent s = true) :
    (List.range 8).map (hostRead s) = [some s.pc, some s.seq.toNat, some s.nopcnt.toNat,
      some (cfgWord s).toNat, some (statusWord s).toNat, some s.memsel.toNat,
      some s.runcnt.toNat, some s.runmax.toNat] := by
  simp [List.range_succ, hostRead, hq]

/-- No read is allowed while a command is in progress (R97). -/
theorem hostRead_busy {s : State} (n : Nat) (hq : quiescent s = false) : hostRead s n = none := by
  simp [hostRead, hq]

/-- R29 lists eight registers. -/
theorem hostRead_of_le {n : Nat} (s : State) (hn : 8 ≤ n) : hostRead s n = none := by
  obtain ⟨k, rfl⟩ := Nat.exists_eq_add_of_le' hn
  exact ite_self none

/-- Settles O50. -/
theorem hostReadsRegistersByNumberWhileQuiescent :
    Obligations.HostReadsRegistersByNumberWhileQuiescent :=
  ⟨fun _ => hostRead_quiescent, fun s _ => hostRead_of_le s, fun _ n => hostRead_busy n⟩

/-- Settles O1: CONSTRUCT(0, 0) writes the values of reset again. -/
theorem resetIsThePowerOnState : Obligations.ResetIsThePowerOnState := by
  rintro t (rfl | h)
  · decide
  · cases h
    exact ⟨rfl, rfl, rfl, rfl, rfl, rfl, rfl, rfl, rfl, rfl, rfl, rfl, rfl, rfl⟩

end Sys2Proof.Machine
end

section
/-! SUPPORT. CFG.LOG_ENABLED and the sequencer (spec/10_state.md R24, spec/42_trap_dispatch.md R121): no
operation branches on the bit, so each leaves states that are equal once the bit and its copies in the
trace are erased. -/

namespace Sys2Proof.Machine

/-- The state with CFG.LOG_ENABLED replaced. -/
def State.setLog (b : Bool) (s : State) : State := { s with logEnabled := b }

section
variable (b : Bool) (s : State)

@[simp] theorem State.setLog_memBound : (s.setLog b).memBound = s.memBound := rfl
@[simp] theorem State.setLog_pcValid : (s.setLog b).pcValid = s.pcValid := rfl
@[simp] theorem State.setLog_runState : (s.setLog b).runState = s.runState := rfl
@[simp] theorem State.setLog_nopcnt : (s.setLog b).nopcnt = s.nopcnt := rfl
@[simp] theorem State.setLog_syscallsIgnored :
    (s.setLog b).syscallsIgnored = s.syscallsIgnored := rfl
@[simp] theorem State.setLog_slot : (s.setLog b).slot = s.slot := rfl

@[simp] theorem runContinues_setLog : runContinues (s.setLog b) = runContinues s := rfl

/-! ### The shared operations -/

theorem eraseLog_faultEntry (c : FaultCause) :
    eraseLog (s.faultEntry c) = (eraseLog s).faultEntry c := rfl

theorem eraseLog_loopCondition_setLog :
    eraseLog (s.setLog b).loopCondition = eraseLog s.loopCondition := by
  unfold State.loopCondition
  rw [runContinues_setLog]
  split <;> rfl

theorem eraseLog_returnStep_setLog :
    eraseLog (s.setLog b).returnStep = eraseLog s.returnStep := by
  unfold State.returnStep
  rw [State.setLog_runState]
  split <;> rfl

theorem eraseLog_countProgress_setLog :
    eraseLog (s.setLog b).countProgress = eraseLog s.countProgress :=
  eraseLog_returnStep_setLog b { s with nopcnt := 0 }

theorem eraseLog_countNoOp_setLog :
    eraseLog (s.setLog b).countNoOp = eraseLog s.countNoOp := by
  have hreturn := eraseLog_returnStep_setLog b { s with nopcnt := s.nopcnt + 1 }
  unfold State.countNoOp
  rw [State.setLog_nopcnt]
  dsimp only
  split
  · rfl
  · exact hreturn

theorem eraseLog_dispatch_setLog (tk : TrapCode) :
    eraseLog ((s.setLog b).dispatch tk) = eraseLog (s.dispatch tk) := by
  unfold State.dispatch
  split
  · rfl
  · rfl
  · exact eraseLog_loopCondition_setLog b s

/-- A response with continuations that differ in LOG_ENABLED's copies only. -/
theorem eraseLog_transact {α β : Type} {p : Phase} {r : Resp α β} {f f' : α → State}
    {g g' : β → State} (hf : ∀ a, eraseLog (f' a) = eraseLog (f a))
    (hg : ∀ left, eraseLog (g' left) = eraseLog (g left)) :
    mapNext eraseLog (transact p r f' g') = mapNext eraseLog (transact p r f g) := by
  cases r with
  | answer a => exact congrArg Host.Outcome.next (hf a)
  | abort left => simp only [transact, mapNext, eraseLog_faultEntry, hg]
  | silent => rfl

theorem eraseLog_withSlot_setLog {p : Phase} {k k' : Insn → Result}
    (hk : ∀ i, mapNext eraseLog (k' i) = mapNext eraseLog (k i)) :
    mapNext eraseLog (withSlot p (s.setLog b) k') = mapNext eraseLog (withSlot p s k) := by
  unfold withSlot
  rw [State.setLog_slot]
  split
  · exact hk _
  · rfl

/-! ### The instructions that branch on another flag -/

theorem eraseLog_execInit_setLog :
    mapNext eraseLog (execInit (s.setLog b)) = mapNext eraseLog (execInit s) := by
  unfold execInit
  rw [State.setLog_memBound]
  split <;> rfl

theorem eraseLog_execStep_setLog :
    mapNext eraseLog (execStep (s.setLog b)) = mapNext eraseLog (execStep s) := by
  unfold execStep
  rw [State.setLog_runState, State.setLog_memBound, State.setLog_pcValid]
  split
  · rfl
  · split
    · rfl
    · split <;> rfl

theorem eraseLog_execRun_setLog (n : Word64) :
    mapNext eraseLog (execRun n (s.setLog b)) = mapNext eraseLog (execRun n s) := by
  unfold execRun
  rw [State.setLog_memBound]
  split
  · exact congrArg Host.Outcome.next (eraseLog_loopCondition_setLog b
      { s.initEffects .running with runmax := n, runcnt := 0 })
  · rfl

theorem eraseLog_execPhNop_setLog :
    mapNext eraseLog (execPhNop (s.setLog b)) = mapNext eraseLog (execPhNop s) := by
  refine eraseLog_withSlot_setLog b s fun i => congrArg Host.Outcome.next ?_
  split
  · exact eraseLog_countNoOp_setLog b (s.ask .isNoOp)
  · exact eraseLog_countProgress_setLog b (s.ask .isNoOp)

/-- The one phase that reads the bit puts it into the trace, where it is erased. -/
theorem eraseLog_execPhTrace_setLog :
    mapNext eraseLog (execPhTrace (s.setLog b)) = mapNext eraseLog (execPhTrace s) := by
  refine eraseLog_withSlot_setLog b s fun i => congrArg Host.Outcome.next ?_
  simp only [eraseLog, List.map_append]
  rfl

theorem eraseLog_execPhSyscall_setLog :
    mapNext eraseLog (execPhSyscall (s.setLog b)) = mapNext eraseLog (execPhSyscall s) := by
  unfold execPhSyscall
  rw [State.setLog_syscallsIgnored]
  split
  · exact congrArg Host.Outcome.next (eraseLog_loopCondition_setLog b s)
  · exact eraseLog_transact
      (fun a => eraseLog_loopCondition_setLog b
        { s.ask .syscallExecute with regs := a.regs, handler := a.handler })
      (fun _ => rfl)

/-! ### Every instruction and every step -/

theorem eraseLog_exec_setLog (i : Instr) :
    mapNext eraseLog (exec i (s.setLog b)) = mapNext eraseLog (exec i s) := by
  cases i with
  | construct | bindMemory => rfl
  | init => exact eraseLog_execInit_setLog b s
  | step => exact eraseLog_execStep_setLog b s
  | run n => exact eraseLog_execRun_setLog b s n
  | kNotrap | kOther => exact congrArg Host.Outcome.next (eraseLog_loopCondition_setLog b s)
  | kSyscall | kHalt => rfl
  | npNonnop => exact congrArg Host.Outcome.next (eraseLog_countProgress_setLog b s)
  | npNop => exact congrArg Host.Outcome.next (eraseLog_countNoOp_setLog b s)
  | phFetch => exact eraseLog_transact (fun _ => rfl) (fun _ => rfl)
  | phSeq | phPc => exact eraseLog_withSlot_setLog b s fun _ => rfl
  | phRead | phExec | phMem | phWb | phTrap =>
    exact eraseLog_withSlot_setLog b s fun _ => eraseLog_transact (fun _ => rfl) (fun _ => rfl)
  | phNop => exact eraseLog_execPhNop_setLog b s
  | phTrace => exact eraseLog_execPhTrace_setLog b s
  | phDispatch =>
    exact eraseLog_withSlot_setLog b s fun i =>
      congrArg Host.Outcome.next (eraseLog_dispatch_setLog b (s.ask .trapKind) (trapKindOf i))
  | phSyscall => exact eraseLog_execPhSyscall_setLog b s

/-- A step finds the same thing to do whatever LOG_ENABLED is. -/
theorem eraseLog_step_setLog :
    mapNext eraseLog (step (s.setLog b)) = mapNext eraseLog (step s) := by
  rcases step_cases s with ⟨hq, hh, hs⟩ | ⟨cw, rest, hq, hh, ⟨hd, hs⟩ | ⟨i, hd, hs⟩⟩ |
    ⟨m, a, byte, rest, hq, hh, hs⟩ | ⟨r, rest, hq, hh, hs⟩ | ⟨w, rest, hq, hh, hs⟩ |
    ⟨p, hq, hp, hs⟩ | ⟨hq, hp, hs⟩ <;> rw [hs]
  · rw [step_wait (s := s.setLog b) hq hh]; rfl
  · rw [step_reserved (s := s.setLog b) hq hh hd]; rfl
  · rw [step_command (s := s.setLog b) hq hh hd]
    exact eraseLog_exec_setLog b { s with host := rest } i
  · rw [step_poke (s := s.setLog b) hq hh]; rfl
  · rw [step_setRegs (s := s.setLog b) hq hh]; rfl
  · rw [step_setHandler (s := s.setLog b) hq hh]; rfl
  · rw [step_busy (s := s.setLog b) hq hp]
    exact eraseLog_exec_setLog b s p.instr
  · rw [step_noPhase (s := s.setLog b) hq hp]

end

/-- Settles O47. -/
theorem logEnabledHasNoEffectInside : Obligations.LogEnabledHasNoEffectInside :=
  fun s b => eraseLog_step_setLog b s

end Sys2Proof.Machine
end

section
/-! SUPPORT. Who writes the memories (spec/20_memory.md R51, R58, R63): of the instructions PH.MEM alone,
by stores into the bound memory, and between commands the host, byte by byte. -/

namespace Sys2Proof.Machine

/-- The memories are unchanged, or PH.MEM, completed or aborted, has stored into the bound one. -/
theorem Ran.mem_cases {i : Instr} {s t : State} (hr : Ran i s t) :
    t.mem = s.mem ∨ i = .phMem ∧ ∃ stores, t.mem = s.mem.storeAll s.memsel s.addrW stores := by
  cases hr with
  | loadStore _ _ a => exact .inr ⟨rfl, a.stores, rfl⟩
  | loadStoreAbort _ _ left => exact .inr ⟨rfl, left.stores, rfl⟩
  | _ => exact .inl (by simp)

/-- Settles O39. -/
theorem memoryIsWrittenOnlyByTheMemoryPhase : Obligations.MemoryIsWrittenOnlyByTheMemoryPhase := by
  intro i s t ht h x hother
  rcases (exec_ran ht).mem_cases with hmem | ⟨hi, stores, hmem⟩
  · rw [hmem]
  · have hh : h ≠ s.memsel := hother.resolve_left (absurd hi)
    rw [hmem, Memory.read_storeAll, if_neg hh]

/-- Settles O31: the step on each of the host's writes is known, and a byte read after the write of one
byte is `Memory.read_write`. -/
theorem hostChangesAreSeenBetweenCommands : Obligations.HostChangesAreSeenBetweenCommands :=
  ⟨fun s m a b _ hq hh =>
      ⟨_, step_poke hq hh, fun h x => s.mem.read_write m h (s.cut a) x b, rfl⟩,
    fun _ _ _ hq hh => step_setRegs hq hh,
    fun _ _ _ hq hh => step_setHandler hq hh⟩

end Sys2Proof.Machine
end

section
/-! SUPPORT. The words of the four formats (spec/30_encoding.md R71 to R75). `StandsFor` lists them row by
row of the opcode table; the decoder answers exactly these, the encoder writes one of them for each
instruction, and each hits the row of its instruction alone. -/

namespace Sys2Proof

/-! ### Putting a word together from its fields -/

@[simp] theorem commandOp_commandWord (op : BitVec 3) (arg : Word64) :
    commandOp (commandWord op arg) = op := BitVec.extractLsb'_append_eq_left

@[simp] theorem commandArg_commandWord (op : BitVec 3) (arg : Word64) :
    commandArg (commandWord op arg) = arg := BitVec.extractLsb'_append_eq_right

theorem exists_commandWord (cw : CommandWord) : ∃ op arg, cw = commandWord op arg :=
  ⟨commandOp cw, commandArg cw, (BitVec.extractLsb'_append_extractLsb' (w := 3) (len := 64)).symm⟩

/-- The opcode is what stands above the 64 bits of the operand. -/
theorem commandOp_toNat (cw : CommandWord) : (commandOp cw).toNat = cw.toNat / 2 ^ 64 := by
  have hcw := cw.isLt
  simp only [commandOp, BitVec.extractLsb'_toNat, Nat.shiftRight_eq_div_pow]
  omega

@[simp] theorem trapClass_trapWord (k : BitVec 2) (sub : BitVec 6) :
    trapClass (trapWord k sub) = k := BitVec.extractLsb'_append_eq_left

@[simp] theorem trapSub_trapWord (k : BitVec 2) (sub : BitVec 6) :
    trapSub (trapWord k sub) = sub := BitVec.extractLsb'_append_eq_right

theorem exists_trapWord (tk : TrapCode) : ∃ k sub, tk = trapWord k sub :=
  ⟨trapClass tk, trapSub tk, (BitVec.extractLsb'_append_extractLsb' (w := 2) (len := 6)).symm⟩

theorem constructArg_bits (l g : Bool) :
    (constructArg l g).getLsbD 0 = l ∧ (constructArg l g).getLsbD 1 = g := by
  revert l g
  decide

/-! ### The decoder of each format -/

section
variable (arg : Word64) (sub : BitVec 6)

@[simp] theorem decodeCommand_construct :
    decodeCommand (commandWord 0#3 arg) = some (.construct (arg.getLsbD 0) (arg.getLsbD 1)) := by
  simp [decodeCommand]

@[simp] theorem decodeCommand_bindMemory :
    decodeCommand (commandWord 1#3 arg) = some (.bindMemory arg) := by
  simp [decodeCommand]

@[simp] theorem decodeCommand_init : decodeCommand (commandWord 2#3 arg) = some .init := by
  simp [decodeCommand]

@[simp] theorem decodeCommand_step : decodeCommand (commandWord 3#3 arg) = some .step := by
  simp [decodeCommand]

@[simp] theorem decodeCommand_run : decodeCommand (commandWord 4#3 arg) = some (.run arg) := by
  simp [decodeCommand]

/-- R79 (a): opcodes 5, 6 and 7 name no command, whatever the operand is. -/
theorem decodeCommand_reserved {op : BitVec 3} (h : 5 ≤ op.toNat) :
    decodeCommand (commandWord op arg) = none := by
  have hop : op = 5#3 ∨ op = 6#3 ∨ op = 7#3 := by revert op; decide
  rcases hop with rfl | rfl | rfl <;> simp [decodeCommand]

@[simp] theorem decodeTrap_notrap : decodeTrap (trapWord 0#2 sub) = .kNotrap sub := by
  simp [decodeTrap]

@[simp] theorem decodeTrap_syscall : decodeTrap (trapWord 1#2 sub) = .kSyscall sub := by
  simp [decodeTrap]

@[simp] theorem decodeTrap_halt : decodeTrap (trapWord 2#2 sub) = .kHalt sub := by
  simp [decodeTrap]

@[simp] theorem decodeTrap_other : decodeTrap (trapWord 3#2 sub) = .kOther sub := by
  simp [decodeTrap]

end

/-- The opcodes of R71: those of the five commands, and the reserved ones. -/
theorem opcode_cases (op : BitVec 3) :
    op = 0#3 ∨ op = 1#3 ∨ op = 2#3 ∨ op = 3#3 ∨ op = 4#3 ∨ 5 ≤ op.toNat := by
  revert op
  decide

theorem trapClass_cases (k : BitVec 2) : k = 0#2 ∨ k = 1#2 ∨ k = 2#2 ∨ k = 3#2 := by
  revert k
  decide

/-- A command word decodes up to opcode 4. -/
theorem decodeCommand_isSome (cw : CommandWord) :
    (decodeCommand cw).isSome = decide ((commandOp cw).toNat ≤ 4) := by
  obtain ⟨op, arg, rfl⟩ := exists_commandWord cw
  rcases opcode_cases op with rfl | rfl | rfl | rfl | rfl | hop
  case inr.inr.inr.inr.inr =>
    have hnot : ¬ op.toNat ≤ 4 := by omega
    simp [decodeCommand_reserved arg hop, hnot]
  all_goals simp

/-- A phase code is the code of the phase it selects. -/
theorem phaseOfCode_some {w : Nat} {p : Phase} (h : phaseOfCode w = some p) : w = p.code := by
  unfold phaseOfCode at h
  split at h <;> cases h <;> rfl

theorem decodePhase_isSome (ph : BitVec 4) :
    (decodePhase ph).isSome = (decide (1 ≤ ph.toNat) && decide (ph.toNat ≤ 12)) := by
  revert ph
  decide

/-! ### The words that stand for an instruction -/

/-- The word, read in the format, stands for the instruction: the tables of R71, R73, R74 and R75 with
every value of the operands and of the bits a command does not use. -/
inductive StandsFor : Format → Nat → Instr → Prop
  | construct (arg : Word64) : StandsFor .cmd (commandWord 0#3 arg).toNat
      (.construct (arg.getLsbD 0) (arg.getLsbD 1))
  | bindMemory (arg : Word64) : StandsFor .cmd (commandWord 1#3 arg).toNat (.bindMemory arg)
  | init (arg : Word64) : StandsFor .cmd (commandWord 2#3 arg).toNat .init
  | step (arg : Word64) : StandsFor .cmd (commandWord 3#3 arg).toNat .step
  | run (arg : Word64) : StandsFor .cmd (commandWord 4#3 arg).toNat (.run arg)
  | notrap (sub : BitVec 6) : StandsFor .tk (trapWord 0#2 sub).toNat (.kNotrap sub)
  | syscall (sub : BitVec 6) : StandsFor .tk (trapWord 1#2 sub).toNat (.kSyscall sub)
  | halt (sub : BitVec 6) : StandsFor .tk (trapWord 2#2 sub).toNat (.kHalt sub)
  | other (sub : BitVec 6) : StandsFor .tk (trapWord 3#2 sub).toNat (.kOther sub)
  | nonnop : StandsFor .np 0 .npNonnop
  | nop : StandsFor .np 1 .npNop
  | phase (p : Phase) : StandsFor .ph p.code p.instr

theorem StandsFor.of_command {cw : CommandWord} {i : Instr} (h : decodeCommand cw = some i) :
    StandsFor .cmd cw.toNat i := by
  obtain ⟨op, arg, rfl⟩ := exists_commandWord cw
  rcases opcode_cases op with rfl | rfl | rfl | rfl | rfl | hop
  · rw [decodeCommand_construct] at h; cases h; exact .construct arg
  · rw [decodeCommand_bindMemory] at h; cases h; exact .bindMemory arg
  · rw [decodeCommand_init] at h; cases h; exact .init arg
  · rw [decodeCommand_step] at h; cases h; exact .step arg
  · rw [decodeCommand_run] at h; cases h; exact .run arg
  · rw [decodeCommand_reserved arg hop] at h; cases h

theorem StandsFor.of_trap (tk : TrapCode) : StandsFor .tk tk.toNat (decodeTrap tk) := by
  obtain ⟨k, sub, rfl⟩ := exists_trapWord tk
  rcases trapClass_cases k with rfl | rfl | rfl | rfl
  · rw [decodeTrap_notrap]; exact .notrap sub
  · rw [decodeTrap_syscall]; exact .syscall sub
  · rw [decodeTrap_halt]; exact .halt sub
  · rw [decodeTrap_other]; exact .other sub

theorem StandsFor.of_noOp (np : BitVec 1) : StandsFor .np np.toNat (decodeNoOp np) := by
  rcases BitVec.eq_zero_or_eq_one np with rfl | rfl
  · exact .nonnop
  · exact .nop

theorem StandsFor.of_phase {ph : BitVec 4} {i : Instr} (h : decodePhase ph = some i) :
    StandsFor .ph ph.toNat i := by
  obtain ⟨p, hp, rfl⟩ := Option.map_eq_some_iff.mp h
  exact phaseOfCode_some hp ▸ .phase p

/-! ### `decode` -/

section
variable {f : Format} {w : Nat} {i : Instr}

theorem fitsFormat_iff : fitsFormat f w = true ↔ w < 2 ^ f.width := decide_eq_true_iff

theorem decode_of_not_fits (h : fitsFormat f w = false) : decode f w = none := by
  simp [decode, h]

/-- A number that fits a format of `n` bits is a bit vector of that width. -/
theorem exists_word_of_fits (h : fitsFormat f w = true) : ∃ v : BitVec f.width, w = v.toNat :=
  ⟨.ofNatLT w (fitsFormat_iff.mp h), rfl⟩

theorem fitsFormat_toNat {n : Nat} (v : BitVec n) (hn : f.width = n) : fitsFormat f v.toNat = true :=
  fitsFormat_iff.mpr (hn ▸ v.isLt)

theorem decode_command (cw : CommandWord) : decode .cmd cw.toNat = decodeCommand cw := by
  simp [decode, fitsFormat_toNat (f := .cmd) cw rfl]

theorem decode_trap (tk : TrapCode) : decode .tk tk.toNat = some (decodeTrap tk) := by
  simp [decode, fitsFormat_toNat (f := .tk) tk rfl]

theorem decode_noOp (np : BitVec 1) : decode .np np.toNat = some (decodeNoOp np) := by
  simp [decode, fitsFormat_toNat (f := .np) np rfl]

theorem decode_phase (ph : BitVec 4) : decode .ph ph.toNat = decodePhase ph := by
  simp [decode, fitsFormat_toNat (f := .ph) ph rfl]

theorem StandsFor.decode_eq (h : StandsFor f w i) : decode f w = some i := by
  cases h with
  | construct | bindMemory | init | step | run => simp [decode_command]
  | notrap | syscall | halt | other => simp [decode_trap]
  | nonnop | nop => rfl
  | phase p => cases p <;> rfl

/-- The decoder answers exactly the words of the tables. -/
theorem decode_eq_some_iff : decode f w = some i ↔ StandsFor f w i := by
  refine ⟨fun h => ?_, StandsFor.decode_eq⟩
  cases hfits : fitsFormat f w with
  | false => rw [decode_of_not_fits hfits] at h; cases h
  | true =>
    obtain ⟨v, rfl⟩ := exists_word_of_fits hfits
    cases f with
    | cmd => exact .of_command ((decode_command v).symm.trans h)
    | tk => cases (decode_trap v).symm.trans h; exact .of_trap v
    | np => cases (decode_noOp v).symm.trans h; exact .of_noOp v
    | ph => exact .of_phase ((decode_phase v).symm.trans h)

theorem decode_isSome (f : Format) (w : Nat) : (decode f w).isSome = wellFormedWord f w := by
  cases hfits : fitsFormat f w with
  | false => simp [decode_of_not_fits hfits, wellFormedWord, hfits]
  | true =>
    rw [wellFormedWord, hfits, Bool.true_and]
    cases f with
    | cmd =>
      obtain ⟨cw, rfl⟩ : ∃ cw : CommandWord, w = cw.toNat := exists_word_of_fits hfits
      rw [decode_command, decodeCommand_isSome, commandOp_toNat, selectsRow]
    | tk =>
      obtain ⟨tk, rfl⟩ : ∃ tk : TrapCode, w = tk.toNat := exists_word_of_fits hfits
      rw [decode_trap, selectsRow, Option.isSome_some]
    | np =>
      obtain ⟨np, rfl⟩ : ∃ np : BitVec 1, w = np.toNat := exists_word_of_fits hfits
      rw [decode_noOp, selectsRow, Option.isSome_some]
    | ph =>
      obtain ⟨ph, rfl⟩ : ∃ ph : BitVec 4, w = ph.toNat := exists_word_of_fits hfits
      rw [decode_phase, decodePhase_isSome, selectsRow]

theorem StandsFor.format_eq (h : StandsFor f w i) : i.format = f := by
  cases h with
  | phase p => cases p <;> rfl
  | _ => rfl

/-! ### The encoder -/

theorem standsFor_encode (i : Instr) : StandsFor i.format (encode i) i := by
  cases i with
  | construct l g =>
    obtain ⟨hl, hg⟩ := constructArg_bits l g
    have h := StandsFor.construct (constructArg l g)
    rwa [hl, hg] at h
  | bindMemory h => exact .bindMemory h
  | init => exact .init 0
  | step => exact .step 0
  | run n => exact .run n
  | kNotrap sub => exact .notrap sub
  | kSyscall sub => exact .syscall sub
  | kHalt sub => exact .halt sub
  | kOther sub => exact .other sub
  | npNonnop => exact .nonnop
  | npNop => exact .nop
  | phFetch => exact .phase .fetch
  | phSeq => exact .phase .seq
  | phRead => exact .phase .read
  | phExec => exact .phase .exec
  | phMem => exact .phase .mem
  | phWb => exact .phase .wb
  | phTrap => exact .phase .trap
  | phPc => exact .phase .pc
  | phNop => exact .phase .nop
  | phTrace => exact .phase .trace
  | phDispatch => exact .phase .dispatch
  | phSyscall => exact .phase .syscall

/-! ### The rows a word hits -/

/-- The bits of a format that select its row: the one mask of the format's rows (R71, R73 to R75). -/
def Format.selector : Format → Nat
  | .cmd => 0x70000000000000000
  | .tk => 0xC0
  | .np => 0x1
  | .ph => 0xF

theorem mask_of_mem_opcodeTable : ∀ r ∈ opcodeTable, r.mask = r.format.selector := by decide

/-- The rows of the opcode table that a word of a format hits. -/
def rowsHit (f : Format) (w : Nat) : List Row := opcodeTable.filter (fun r => r.hits f w)

/-- Only the selecting bits decide which rows a word hits. -/
theorem rowsHit_congr {w' : Nat} (h : w &&& f.selector = w' &&& f.selector) :
    rowsHit f w = rowsHit f w' := by
  refine List.filter_congr fun r hr => ?_
  by_cases hf : r.format = f
  · simp only [Row.hits, mask_of_mem_opcodeTable r hr, hf, h]
  · simp only [Row.hits, hf, decide_false, Bool.false_and]

theorem rowsHit_command (op : BitVec 3) (arg : Word64) :
    rowsHit .cmd (commandWord op arg).toNat = rowsHit .cmd (commandWord op 0).toNat :=
  rowsHit_congr ((Laws.commandWord_mask op arg).trans (Laws.commandWord_mask op 0).symm)

theorem rowsHit_trap (k : BitVec 2) (sub : BitVec 6) :
    rowsHit .tk (trapWord k sub).toNat = rowsHit .tk (trapWord k 0).toNat :=
  rowsHit_congr ((Laws.trapWord_mask k sub).trans (Laws.trapWord_mask k 0).symm)

/-- A word hits the row of the instruction it stands for, and no other. -/
theorem StandsFor.rowsHit_eq (h : StandsFor f w i) :
    (rowsHit f w).map Row.mnemonic = [i.mnemonic] := by
  cases h with
  | construct | bindMemory | init | step | run => rw [rowsHit_command]; rfl
  | notrap | syscall | halt | other => rw [rowsHit_trap]; rfl
  | nonnop | nop => rfl
  | phase p => cases p <;> rfl

end

/-! ### The obligations about words -/

/-- Settles O51: the encoder writes a word of the table, and the decoder reads it. -/
theorem decodeInvertsEncode : Obligations.DecodeInvertsEncode :=
  fun i => (standsFor_encode i).decode_eq

/-- Settles O52: what is decoded is known on every word, and the tables give its format. -/
theorem decodeAcceptsExactlyTheWellFormedWords :
    Obligations.DecodeAcceptsExactlyTheWellFormedWords :=
  ⟨decode_isSome, fun _ _ _ h => (decode_eq_some_iff.mp h).format_eq⟩

/-- Settles O53: a word of the tables hits one row. -/
theorem decodedInstructionIsTheOneRowItsWordMatches :
    Obligations.DecodedInstructionIsTheOneRowItsWordMatches :=
  fun _ _ _ h => (decode_eq_some_iff.mp h).rowsHit_eq

/-- Settles O55: thirteen closed words, evaluated. -/
theorem specWordsDecodeAsTheSpecSays : Obligations.SpecWordsDecodeAsTheSpecSays := by
  unfold Obligations.SpecWordsDecodeAsTheSpecSays
  decide

end Sys2Proof
end

section
/-! SUPPORT. What a command does with its operand (spec/30_encoding.md R72): the equations of
`decodeCommand`, and the registers the three commands with an operand write from it. -/

namespace Sys2Proof.Machine

/-- At the cap the loop condition ends the run. -/
theorem State.loopCondition_of_le {s : State} (h : s.runmax.toNat ≤ s.runcnt.toNat) :
    s.loopCondition = { s with term := .notrap, runState := .idle, phase := none } := by
  rcases s.loopCondition_cases with ⟨hlt, _⟩ | ⟨_, heq⟩
  · omega
  · exact heq

theorem execRun_bound {s : State} (n : Word64) (h : s.memBound = true) :
    exec (.run n) s =
      .next { s.initEffects .running with runmax := n, runcnt := 0 }.loopCondition :=
  if_pos h

/-- RUN(0) performs no step: it is at its cap from the start (R94). -/
theorem loopCondition_run_zero (s : State) :
    { s.initEffects .running with runmax := 0, runcnt := 0 }.loopCondition =
      { s.initEffects .idle with runmax := 0, runcnt := 0, term := .notrap, phase := none } :=
  State.loopCondition_of_le (Nat.le_refl 0)

/-- Settles O54. -/
theorem unusedArgumentBitsAreIgnored : Obligations.UnusedArgumentBitsAreIgnored := by
  intro arg
  refine ⟨decodeCommand_construct arg, decodeCommand_bindMemory arg, decodeCommand_init arg,
    decodeCommand_step arg, decodeCommand_run arg, decodeCommand_reserved arg (by decide),
    decodeCommand_reserved arg (by decide), decodeCommand_reserved arg (by decide),
    fun s => ⟨⟨_, rfl, rfl, rfl⟩, ⟨_, rfl, rfl⟩, fun hb => ⟨_, execRun_bound arg hb, by simp, ?_⟩⟩⟩
  rintro rfl
  rw [loopCondition_run_zero]
  exact ⟨rfl, rfl, rfl⟩

end Sys2Proof.Machine
end

section
/-! SUPPORT. The transactions (spec/30_encoding.md R75, spec/00_scope.md R12): each phase makes its own and
a command none but StartAddress; and what PH9 and PH11 do with the answer of theirs (R73, R74). -/

namespace Sys2Proof.Machine

/-! ### The rows of an answer -/

/-- A trap class does what the dispatch selects for its code. -/
theorem exec_decodeTrap (tk : TrapCode) (s : State) :
    exec (decodeTrap tk) s = .next (s.dispatch tk) := by
  unfold State.dispatch decodeTrap
  split <;> rfl

section
variable {s : State} {i : Insn} (hs : s.slot = some i)
include hs

theorem exec_phDispatch : exec .phDispatch s = exec (decodeTrap i.trapKind) (s.ask .trapKind) := by
  rw [exec_decodeTrap]
  exact withSlot_some _ hs

theorem exec_phNop : exec .phNop s = exec (decodeNoOp i.noOp) (s.ask .isNoOp) := by
  refine (withSlot_some _ hs).trans ?_
  rcases BitVec.eq_zero_or_eq_one i.noOp with hn | hn <;> simp only [isNoOp, hn] <;> rfl

end

/-- Settles O30. -/
theorem guardAndDispatchStepsRunTheAnswerRows :
    Obligations.GuardAndDispatchStepsRunTheAnswerRows :=
  fun _ _ hq hs => ⟨fun hp => (step_busy hq hp).trans (exec_phNop hs),
    fun hp => (step_busy hq hp).trans (exec_phDispatch hs)⟩

/-! ### Which transactions are made -/

section
variable {s t : State}

/-- A phase makes its transaction whether it is answered or aborted, and takes nothing from the host. -/
theorem Ran.phase_request {p : Phase} (hr : Ran p.instr s t) :
    t.requests = s.requests ++ (phaseRequest s p).toList ∧ t.host = s.host := by
  cases p with
  | syscall =>
    cases hr with
    | syscallIgnored _ hg | syscall _ _ hg | syscallAbort _ _ hg => simp [phaseRequest, hg]
  | _ => cases hr <;> simp [phaseRequest]

/-- A command makes no transaction but the StartAddress of INIT and RUN. -/
theorem Ran.command_request {i : Instr} (hr : Ran i s t) (hi : i.format = .cmd) :
    t.requests = s.requests ∨ t.requests = s.requests ++ [.startAddress s.memsel] := by
  cases hr with
  | construct | bindMemory | initRefused | stepRefused | step | runRefused => exact .inl rfl
  | init => exact .inr rfl
  | run => exact .inr (by simp)
  | _ => cases hi

/-- Of what a quiescent sequencer finds to do only a command can make a transaction. -/
theorem step_quiescent_request (hq : quiescent s = true) (ht : step s = .next t) :
    t.requests = s.requests ∨ t.requests = s.requests ++ [.startAddress s.memsel] := by
  rcases step_cases s with ⟨_, _, hs⟩ | ⟨cw, rest, _, _, ⟨_, hs⟩ | ⟨i, hd, hs⟩⟩ |
    ⟨m, a, b, rest, _, _, hs⟩ | ⟨r, rest, _, _, hs⟩ | ⟨w, rest, _, _, hs⟩ |
    ⟨p, hbusy, _, hs⟩ | ⟨_, _, hs⟩ <;> rw [hs] at ht
  · cases ht; exact .inl rfl
  · cases ht; exact .inl rfl
  · exact (exec_ran ht).command_request (s := { s with host := rest }) (decodeCommand_format hd)
  · cases ht; exact .inl rfl
  · cases ht; exact .inl rfl
  · cases ht; exact .inl rfl
  · exact absurd (hq.symm.trans hbusy) nofun
  · cases ht

end

/-- Settles O42. -/
theorem eachPhaseMakesItsOneTransaction : Obligations.EachPhaseMakesItsOneTransaction :=
  fun _ _ ht => ⟨fun _ hq hp => (exec_ran ((step_busy hq hp).symm.trans ht)).phase_request,
    fun hq => step_quiescent_request hq ht⟩

end Sys2Proof.Machine
end

section
/-! SUPPORT. The five host commands (spec/40_host_commands.md R90 to R96): one equation for each outcome
of a command, accepted or refused, and the statements made of them. -/

namespace Sys2Proof.Machine

/-! ### Each command, refused and accepted -/

section
variable {s : State}

theorem execInit_bound (h : s.memBound = true) : exec .init s = .next (s.initEffects .idle) :=
  if_pos h

theorem execInit_unbound (h : s.memBound = false) : exec .init s = .next (s.refuse .noMem) :=
  if_neg (ne_true_of_eq_false h)

theorem execRun_unbound (n : Word64) (h : s.memBound = false) :
    exec (.run n) s = .next (s.refuse .noMem) :=
  if_neg (ne_true_of_eq_false h)

theorem execStep_fault (h : s.runState = .fault) : exec .step s = .next (s.refuse .inFault) :=
  if_pos h

theorem execStep_unbound (hf : s.runState ≠ .fault) (hb : s.memBound = false) :
    exec .step s = .next (s.refuse .noMem) :=
  (if_neg hf).trans (if_pos hb)

theorem execStep_invalid (hf : s.runState ≠ .fault) (hb : s.memBound = true)
    (hv : s.pcValid = false) : exec .step s = .next (s.refuse .noInit) :=
  (if_neg hf).trans <| (if_neg (ne_false_of_eq_true hb)).trans (if_pos hv)

theorem execStep_accepted (hf : s.runState ≠ .fault) (hb : s.memBound = true)
    (hv : s.pcValid = true) : exec .step s = .next { s with
      runState := .stepping, err := .ok, phase := some .fetch, record := none } :=
  (if_neg hf).trans <| (if_neg (ne_false_of_eq_true hb)).trans (if_neg (ne_false_of_eq_true hv))

/-- An opcode above RUN's names no command (R79 a). -/
theorem decodeCommand_of_reserved {cw : CommandWord} (h : 5 ≤ (commandOp cw).toNat) :
    decodeCommand cw = none := by
  obtain ⟨op, arg, rfl⟩ := exists_commandWord cw
  exact decodeCommand_reserved arg (by simpa using h)

/-- StartAddress reads the memory's handle and no register that INIT writes. -/
theorem State.initEffects_initEffects (rs : RunState) :
    (s.initEffects rs).initEffects rs = (s.initEffects rs).ask (.startAddress s.memsel) :=
  rfl

/-- Below the cap the loop condition starts the next step. -/
theorem State.loopCondition_of_lt (h : s.runcnt.toNat < s.runmax.toNat) :
    s.loopCondition = { s with phase := some .fetch } := by
  rcases s.loopCondition_cases with ⟨_, heq⟩ | ⟨hle, _⟩
  · exact heq
  · omega

/-- RUN(n) with a nonzero cap performs at least one step (R94). -/
theorem loopCondition_run_pos {n : Word64} (h : n ≠ 0) :
    { s.initEffects .running with runmax := n, runcnt := 0 }.loopCondition =
      { s.initEffects .running with runmax := n, runcnt := 0, phase := some .fetch } :=
  State.loopCondition_of_lt (Nat.pos_of_ne_zero (BitVec.toNat_ne_iff_ne.mpr h))

/-- A command that is not accepted has changed ERR alone, and an accepted one leaves ERR OK. -/
theorem Ran.command_err {i : Instr} {t : State} (hr : Ran i s t) (hi : i.format = .cmd) :
    t.err = .ok ∨ ∃ e, e ≠ .ok ∧ t = s.refuse e := by
  cases hr with
  | construct | bindMemory | init | step => exact .inl rfl
  | run => exact .inl (by simp)
  | initRefused | runRefused => exact .inr ⟨.noMem, nofun, rfl⟩
  | stepRefused _ e he => exact .inr ⟨e, he, rfl⟩
  | _ => cases hi

end

/-! ### The obligations about commands -/

/-- Settles O8: one equation for each cause in the order R96 checks them, and for every command the
inversion of `exec`. -/
theorem refusedCommandWritesOnlyErr : Obligations.RefusedCommandWritesOnlyErr :=
  ⟨fun _ _ _ hq hh hop => step_reserved hq hh (decodeCommand_of_reserved hop),
    fun _ => execStep_fault, fun _ => execStep_unbound, fun _ => execInit_unbound,
    fun _ n => execRun_unbound n, fun _ => execStep_invalid,
    fun _ _ _ hi ht => (exec_ran ht).command_err hi⟩

/-- Settles O3: every field of STATUS has the value of reset, and CFG holds the two operands. -/
theorem constructWritesEveryRegister : Obligations.ConstructWritesEveryRegister := by
  intro l g s
  have hworld : sameWorld s (s.construct l g) := ⟨fun _ _ => rfl, rfl, rfl⟩
  have hmachine : sameMachine s (s.construct l g) := ⟨rfl, rfl, rfl⟩
  have hstatus : statusWord (s.construct l g) = 0 := calc
    statusWord (s.construct l g) = statusWord State.reset := rfl
    _ = 0 := by decide
  exact ⟨s.construct l g, rfl, rfl, rfl, rfl, rfl, rfl, rfl, rfl, hstatus, rfl, rfl, rfl, rfl,
    hworld, hmachine, rfl, rfl, rfl⟩

/-- Settles O4: BIND_MEMORY has one outcome, accepted in every state. -/
theorem bindMemoryReplacesTheBinding : Obligations.BindMemoryReplacesTheBinding :=
  fun _ _ => rfl

/-- Settles O5. -/
theorem initWritesPcFromStartAddress : Obligations.InitWritesPcFromStartAddress := by
  refine ⟨fun _ => execInit_bound, fun _ => execInit_unbound, fun s t u hb ht hu => ?_⟩
  cases (execInit_bound hb).symm.trans ht
  have hb' : (s.initEffects .idle).memBound = true := by simpa using hb
  cases (execInit_bound hb').symm.trans hu
  exact State.initEffects_initEffects .idle

/-- Settles O6. -/
theorem stepCommandStartsPhaseOne : Obligations.StepCommandStartsPhaseOne :=
  fun _ => execStep_accepted

/-- Settles O7: the loop condition of a RUN at its start is the test for a cap of 0. -/
theorem runStartsWithInitAndTheCap : Obligations.RunStartsWithInitAndTheCap := by
  intro n s hb
  rw [execRun_bound n hb]
  rcases eq_or_ne n 0 with rfl | hn
  · rw [loopCondition_run_zero]
    rfl
  · rw [loopCondition_run_pos hn]
    simp only [if_neg hn]
    rfl

/-- Settles O29: the phase's row is the one its code decodes to. -/
theorem stepRunsTheInstructionItFinds : Obligations.StepRunsTheInstructionItFinds :=
  ⟨fun _ p hq hp => ⟨step_busy hq hp, (StandsFor.phase p).decode_eq⟩,
    fun _ _ _ _ => step_command, fun _ => step_wait⟩

end Sys2Proof.Machine
end

section
/-! SUPPORT. The phases of a step (spec/41_step_sequence.md R100 to R111): one equation for each that
completes, the fault of each that aborts, and the nine in order. -/

namespace Sys2Proof.Machine

/-! ### A transaction about the instruction in the slot -/

section
variable {α β : Type} {p : Phase} {s : State} {i : Insn} {resp : Insn → Resp α β}
  {f : Insn → α → State} {g : Insn → β → State}

theorem withSlot_transact_answer {a : α} (hs : s.slot = some i) (ha : resp i = .answer a) :
    withSlot p s (fun j => transact p (resp j) (f j) (g j)) = .next (f i a) :=
  (withSlot_some _ hs).trans (transact_answer _ _ ha)

theorem withSlot_transact_abort {b : β} (hs : s.slot = some i) (ha : resp i = .abort b) :
    withSlot p s (fun j => transact p (resp j) (f j) (g j)) =
      .next ((g i b).faultEntry (.collab p)) :=
  (withSlot_some _ hs).trans (transact_abort _ _ ha)

end

/-! ### The phases that complete -/

section
variable {s : State} {i : Insn}

theorem exec_phFetch_answer (ha : answerFetch s = .answer i) : exec .phFetch s = .next
    { s.ask (.fetch s.memsel s.pc) with slot := some i, record := none, phase := some .seq } :=
  transact_answer _ _ ha

theorem exec_phSeq (hs : s.slot = some i) : exec .phSeq s = .next
    { s.ask (.setSeqId s.seq) with
      slot := some (i.setSeqId s.seq), seq := s.seq + 1, phase := some .read } :=
  withSlot_some _ hs

theorem exec_phRead_answer {v : List Nat} (hs : s.slot = some i)
    (ha : answerReadSources s i = .answer v) : exec .phRead s = .next
    { s.ask .readSources with slot := some (i.setSources v), phase := some .exec } :=
  withSlot_transact_answer hs ha

theorem exec_phExec_answer {i' : Insn} (hs : s.slot = some i)
    (ha : answerExecute s i = .answer i') : exec .phExec s = .next
    { s.ask .execute with slot := some (i'.setSeqId i.seqId), phase := some .mem } :=
  withSlot_transact_answer hs ha

theorem exec_phMem_answer {a : AccessAnswer} (hs : s.slot = some i)
    (ha : answerLoadStore s i = .answer a) : exec .phMem s = .next
    { s.ask (.loadStore s.memsel) with
      mem := s.mem.storeAll s.memsel s.addrW a.stores,
      slot := some (a.insn.setSeqId i.seqId), phase := some .wb } :=
  withSlot_transact_answer hs ha

theorem exec_phWb_answer {r : RegFile} (hs : s.slot = some i)
    (ha : answerWriteDst s i = .answer r) : exec .phWb s = .next
    { s.ask .writeDst with regs := r, phase := some .trap } :=
  withSlot_transact_answer hs ha

theorem exec_phTrap_answer {a : TrapAnswer} (hs : s.slot = some i)
    (ha : answerCheckTrap s i = .answer a) : exec .phTrap s = .next
    { s.ask .checkTrap with slot := some (i.classify a), phase := some .pc } :=
  withSlot_transact_answer hs ha

theorem exec_phPc (hs : s.slot = some i) : exec .phPc s = .next
    { s.ask .nextPc with pc := nextPcOf s i, phase := some .nop } :=
  withSlot_some _ hs

/-! ### PH9: the guard and the return -/

theorem exec_phNop_noOp (hs : s.slot = some i) (hn : i.noOp = 1#1) :
    exec .phNop s = .next (s.ask .isNoOp).countNoOp := by
  rw [exec_phNop hs, hn]
  rfl

theorem exec_phNop_progress (hs : s.slot = some i) (hn : i.noOp ≠ 1#1) :
    exec .phNop s = .next (s.ask .isNoOp).countProgress := by
  rw [exec_phNop hs, (BitVec.eq_zero_or_eq_one i.noOp).resolve_right hn]
  rfl

/-- The state after the return of instruction `i` with NOPCNT updated to `n`, by the command in progress:
a STEP is complete, a RUN counts the step and goes on to PH10 (R111). -/
def State.returned (s : State) (i : Insn) (n : BitVec 32) : State :=
  { s with
    nopcnt := n, record := some (s.recordOf i),
    runState := if s.runState = .running then .running else .idle,
    runcnt := if s.runState = .running then s.runcnt + 1 else s.runcnt,
    phase := if s.runState = .running then some .trace else none }

theorem State.returnStep_of_slot (hs : s.slot = some i) : s.returnStep = s.returned i s.nopcnt := by
  rcases s.returnStep_cases with ⟨hrun, heq⟩ | ⟨hrun, heq⟩ <;>
    simp [heq, hrun, hs, State.returned]

/-- Progress zeroes the counter and the step returns (R128). -/
theorem State.countProgress_of_slot (hs : s.slot = some i) : s.countProgress = s.returned i 0 :=
  State.returnStep_of_slot (s := { s with nopcnt := 0 }) hs

/-- Below the limit a no-op is counted and the step returns (R127). -/
theorem State.countNoOp_of_lt (hs : s.slot = some i) (h : s.nopcnt.toNat < 10) :
    s.countNoOp = s.returned i (s.nopcnt + 1) := by
  rcases s.countNoOp_cases with ⟨hlt, _⟩ | ⟨_, heq⟩
  · bv_omega
  · exact heq.trans (State.returnStep_of_slot (s := { s with nopcnt := s.nopcnt + 1 }) hs)

/-- At the limit a no-op raises RunawayExecution (R129). -/
theorem State.countNoOp_of_limit (h : s.nopcnt = 10) :
    s.countNoOp = { s with nopcnt := 11 }.faultEntry .runaway := by
  rcases s.countNoOp_cases with ⟨_, heq⟩ | ⟨hle, _⟩
  · rw [heq, h]
    rfl
  · rw [h] at hle
    exact absurd hle (by decide)

end

/-! ### The obligations about single phases -/

/-- Settles O9. -/
theorem fetchPutsAFreshInstructionInTheSlot : Obligations.FetchPutsAFreshInstructionInTheSlot :=
  fun _ _ => exec_phFetch_answer

/-- Settles O10. -/
theorem seqAssignsTheOldIdAndIncrements : Obligations.SeqAssignsTheOldIdAndIncrements :=
  fun s _ hs => ⟨_, exec_phSeq hs, BitVec.toNat_add s.seq 1, rfl⟩

/-- Settles O11. -/
theorem readAndExecuteChangeOnlyTheInstruction :
    Obligations.ReadAndExecuteChangeOnlyTheInstruction :=
  ⟨fun _ _ _ => exec_phRead_answer, fun _ _ _ => exec_phExec_answer⟩

/-- Settles O12: a byte read after the answer's stores is `Memory.read_storeAll`. -/
theorem loadStoreWritesExactlyTheAnsweredBytes :
    Obligations.LoadStoreWritesExactlyTheAnsweredBytes := by
  intro s i a hs ha
  refine ⟨_, exec_phMem_answer hs ha, fun h x => s.mem.read_storeAll _ h _ _ x, fun hnil => ?_, rfl⟩
  simp [hnil]

/-- Settles O13. -/
theorem writeBackCommitsTheRegisterFile : Obligations.WriteBackCommitsTheRegisterFile := by
  intro s i r hs ha
  refine ⟨exec_phWb_answer hs ha, fun t ht h x => ?_⟩
  cases (exec_phWb_answer hs ha).symm.trans ht
  rfl

/-- Settles O14. -/
theorem checkTrapClassifiesWithoutActing : Obligations.CheckTrapClassifiesWithoutActing :=
  fun _ _ _ => exec_phTrap_answer

/-- Settles O15. -/
theorem pcPhaseStoresNextPcUnchanged : Obligations.PcPhaseStoresNextPcUnchanged :=
  fun _ _ hs => ⟨_, exec_phPc hs, rfl, Nat.mod_eq_of_lt, rfl⟩

/-- Settles O16: each progress class returns the step with its own value of NOPCNT. -/
theorem nopPhaseReturnsTheInstruction : Obligations.NopPhaseReturnsTheInstruction := by
  intro s i hs hlt
  by_cases hn : i.noOp = 1#1
  · rw [exec_phNop_noOp hs hn, State.countNoOp_of_lt (s := s.ask .isNoOp) hs (hlt hn), if_pos hn]
    rfl
  · rw [exec_phNop_progress hs hn, State.countProgress_of_slot (s := s.ask .isNoOp) hs, if_neg hn]
    rfl

/-- Settles O20: each aborted transaction leaves what its answer says and takes the fault of its phase. -/
theorem abortTakesTheFaultOfItsPhase : Obligations.AbortTakesTheFaultOfItsPhase :=
  ⟨fun _ ha => transact_abort _ _ ha,
    fun _ _ _ => withSlot_transact_abort,
    fun _ _ _ => withSlot_transact_abort,
    fun s _ _ hs ha => ⟨_, withSlot_transact_abort hs ha,
      fun h x => s.mem.read_storeAll _ h _ _ x, rfl⟩,
    fun _ _ _ => withSlot_transact_abort,
    fun _ _ _ => withSlot_transact_abort,
    fun _ _ hg ha => (if_neg (ne_true_of_eq_false hg)).trans (transact_abort _ _ ha)⟩

/-! ### The nine phases in order -/

/-- A run with phase `p` in progress goes on from what the phase left. -/
theorem run_phase {k : Nat} {s t : State} {p : Phase} (hq : quiescent s = false)
    (hp : s.phase = some p) (ht : exec p.instr s = .next t) :
    Host.Core.run Sys2Proof.core (k + 1) s = Host.Core.run Sys2Proof.core k t :=
  run_succ_next ((step_busy hq hp).trans ht)

/-- The state from PH3 to PH9 of a step begun in `s`: phase `p` in progress on instruction `i`, the
memories and the register file as far as the step has written them, and the transactions made. -/
def State.midStep (s : State) (p : Phase) (i : Insn) (m : Memory) (r : RegFile)
    (rs : List Request) : State :=
  { s with
    seq := s.seq + 1, slot := some i, mem := m, regs := r, record := none, phase := some p,
    requests := rs }

section
variable {s : State} {i : Insn} {m : Memory} {r : RegFile} {rs : List Request}

theorem exec_phRead_midStep {v : List Nat} (ha : answerReadSources s i = .answer v) :
    exec .phRead (s.midStep .read i m s.regs rs) = .next
      (s.midStep .exec (i.setSources v) m s.regs (rs ++ [.readSources])) :=
  exec_phRead_answer (s := s.midStep .read i m s.regs rs) rfl ha

theorem exec_phExec_midStep {i' : Insn} (ha : answerExecute s i = .answer i') :
    exec .phExec (s.midStep .exec i m r rs) = .next
      (s.midStep .mem (i'.setSeqId i.seqId) m r (rs ++ [.execute])) :=
  exec_phExec_answer (s := s.midStep .exec i m r rs) rfl ha

theorem exec_phMem_midStep {a : AccessAnswer} (ha : answerLoadStore s i = .answer a) :
    exec .phMem (s.midStep .mem i s.mem r rs) = .next
      (s.midStep .wb (a.insn.setSeqId i.seqId) (s.mem.storeAll s.memsel s.addrW a.stores) r
        (rs ++ [.loadStore s.memsel])) :=
  exec_phMem_answer (s := s.midStep .mem i s.mem r rs) rfl ha

theorem exec_phWb_midStep {r' : RegFile} (ha : answerWriteDst s i = .answer r') :
    exec .phWb (s.midStep .wb i m s.regs rs) = .next
      (s.midStep .trap i m r' (rs ++ [.writeDst])) :=
  exec_phWb_answer (s := s.midStep .wb i m s.regs rs) rfl ha

theorem exec_phTrap_midStep {c : TrapAnswer} (ha : answerCheckTrap s i = .answer c) :
    exec .phTrap (s.midStep .trap i m r rs) = .next
      (s.midStep .pc (i.classify c) m r (rs ++ [.checkTrap])) :=
  exec_phTrap_answer (s := s.midStep .trap i m r rs) rfl ha

end

/-- Settles O19: eight phases one after the other, each asked of the instruction the one before left, and
then PH9 by what it does at and below the limit. -/
theorem nineStepPhasesRunInOrder : Obligations.NineStepPhasesRunInOrder := by
  intro s i₀ v i₁ a r c hq hp hfetch hread hexec hmem hwb htrap atNop
  have hrun : Host.Core.run Sys2Proof.core 8 s = .next atNop := calc
    _ = Host.Core.run Sys2Proof.core 7 _ := run_phase hq hp (exec_phFetch_answer hfetch)
    _ = Host.Core.run Sys2Proof.core 6 (s.midStep .read (i₀.setSeqId s.seq) s.mem s.regs
        ((s.requests ++ [Request.fetch s.memsel s.pc]) ++ [Request.setSeqId s.seq])) :=
      run_phase hq rfl (exec_phSeq rfl)
    _ = Host.Core.run Sys2Proof.core 5 _ := run_phase hq rfl (exec_phRead_midStep hread)
    _ = Host.Core.run Sys2Proof.core 4 _ := run_phase hq rfl (exec_phExec_midStep hexec)
    _ = Host.Core.run Sys2Proof.core 3 _ := run_phase hq rfl (exec_phMem_midStep hmem)
    _ = Host.Core.run Sys2Proof.core 2 _ := run_phase hq rfl (exec_phWb_midStep hwb)
    _ = Host.Core.run Sys2Proof.core 1 _ := run_phase hq rfl (exec_phTrap_midStep htrap)
    _ = Host.Core.run Sys2Proof.core 0 _ := run_phase hq rfl (exec_phPc rfl)
    _ = .next atNop := by
      simp [Host.Core.run, atNop, State.midStep, State.ask, Insn.setSeqId, Insn.setSources,
        Insn.classify, nextPcOf, State.cut]
  have hninth : Host.Core.run Sys2Proof.core 9 s = exec .phNop atNop :=
    (run_next_succ hrun).trans (step_busy (s := atNop) (p := .nop) hq rfl)
  have hslot : atNop.slot =
      some { a.insn with seqId := s.seq, trapKind := c.kind, nextPc := c.nextPc } := rfl
  refine ⟨hrun, fun hlt => ?_, fun hn hcnt => ?_⟩
  · exact hninth.trans (nopPhaseReturnsTheInstruction atNop _ hslot hlt)
  · rw [hninth, exec_phNop_noOp hslot hn, State.countNoOp_of_limit (s := atNop.ask .isNoOp) hcnt]
    rfl

end Sys2Proof.Machine
end

section
/-! SUPPORT. The sequence ids (spec/41_step_sequence.md R102, spec/10_state.md R22, R37): PH2 hands out the
value of SEQ and counts it, and no other instruction but CONSTRUCT touches either, so the ids of any two
stretches of a run join without a gap. -/

namespace Sys2Proof.Machine

/-! ### Blocks of consecutive ids -/

/-- The `n` ids from `start` on, modulo 2^64. -/
def idBlock (start : Word64) (n : Nat) : List Word64 :=
  (List.range n).map fun j => start + BitVec.ofNat 64 j

/-- Two blocks join when the second starts where the first ends. -/
theorem idBlock_add (start : Word64) (n m : Nat) :
    idBlock start (n + m) = idBlock start n ++ idBlock (start + BitVec.ofNat 64 n) m := by
  simp [idBlock, List.range_add, BitVec.ofNat_add, BitVec.add_assoc]

theorem idBlock_one (start : Word64) : idBlock start 1 = [start] := by
  simp [idBlock]

/-! ### The ids handed out between two states -/

/-- From `s` to `t` a block of consecutive ids is handed out that starts at SEQ, and SEQ counts it. -/
def HandsOutBlock (s t : State) : Prop :=
  ∃ n : Nat, idsGiven t = idsGiven s ++ idBlock s.seq n ∧ t.seq = s.seq + BitVec.ofNat 64 n

section
variable {s t u : State} {i : Instr}

theorem HandsOutBlock.of_unchanged (hids : idsGiven t = idsGiven s) (hseq : t.seq = s.seq) :
    HandsOutBlock s t :=
  ⟨0, by simp [hids, idBlock], by simp [hseq]⟩

theorem HandsOutBlock.refl (s : State) : HandsOutBlock s s := .of_unchanged rfl rfl

theorem HandsOutBlock.trans (hst : HandsOutBlock s t) (htu : HandsOutBlock t u) :
    HandsOutBlock s u := by
  obtain ⟨n, hids, hseq⟩ := hst
  obtain ⟨m, hids', hseq'⟩ := htu
  refine ⟨n + m, ?_, ?_⟩
  · rw [hids', hids, hseq, idBlock_add, List.append_assoc]
  · rw [hseq', hseq, BitVec.ofNat_add, BitVec.add_assoc]

/-- PH2 hands out the one id SEQ holds; every other instruction but CONSTRUCT hands out none and leaves
SEQ alone. -/
theorem Ran.handsOutBlock (hr : Ran i s t) (hc : ∀ l g, i ≠ .construct l g) :
    HandsOutBlock s t := by
  cases hr with
  | construct l g => exact absurd rfl (hc l g)
  | seq => exact ⟨1, by simp [idsGiven, idBlock_one], rfl⟩
  | _ => exact .of_unchanged (by simp [idsGiven]) (by simp)

/-- No row of format PH is CONSTRUCT. -/
theorem phase_instr_ne_construct (p : Phase) (l g : Bool) : p.instr ≠ .construct l g := by
  cases p <;> exact nofun

/-- A step without a CONSTRUCT to take hands out a block. -/
theorem step_handsOutBlock (hc : noConstructWaits s) (ht : step s = .next t) :
    HandsOutBlock s t := by
  rcases step_cases s with ⟨_, _, hs⟩ | ⟨cw, rest, _, hh, ⟨_, hs⟩ | ⟨i, hd, hs⟩⟩ |
    ⟨m, a, b, rest, _, _, hs⟩ | ⟨r, rest, _, _, hs⟩ | ⟨w, rest, _, _, hs⟩ |
    ⟨p, _, _, hs⟩ | ⟨_, _, hs⟩ <;> rw [hs] at ht
  · cases ht; exact .refl s
  · cases ht; exact .of_unchanged rfl rfl
  · have hi : ∀ l g, i ≠ .construct l g := fun l g hi => hc cw (by simp [hh]) l g (hi ▸ hd)
    exact (exec_ran ht).handsOutBlock (s := { s with host := rest }) hi
  · cases ht; exact .of_unchanged rfl rfl
  · cases ht; exact .of_unchanged rfl rfl
  · cases ht; exact .of_unchanged rfl rfl
  · exact (exec_ran ht).handsOutBlock (phase_instr_ne_construct p)
  · cases ht

/-! ### The command port -/

/-- What the host has still to present is no instruction's to change. -/
theorem Ran.host_eq (hr : Ran i s t) : t.host = s.host := by
  cases hr with
  | _ => simp

/-- A step takes at most the head of what the host presents. -/
theorem step_host (ht : step s = .next t) : t.host = s.host ∨ t.host = s.host.tail := by
  rcases step_cases s with ⟨_, _, hs⟩ | ⟨cw, rest, _, hh, ⟨_, hs⟩ | ⟨i, _, hs⟩⟩ |
    ⟨m, a, b, rest, _, hh, hs⟩ | ⟨r, rest, _, hh, hs⟩ | ⟨w, rest, _, hh, hs⟩ |
    ⟨p, _, _, hs⟩ | ⟨_, _, hs⟩ <;> rw [hs] at ht
  · cases ht; exact .inl rfl
  · cases ht; rw [hh]; exact .inr rfl
  · rw [hh]; exact .inr (exec_ran ht).host_eq
  · cases ht; rw [hh]; exact .inr rfl
  · cases ht; rw [hh]; exact .inr rfl
  · cases ht; rw [hh]; exact .inr rfl
  · exact .inl (exec_ran ht).host_eq
  · cases ht

theorem step_noConstructWaits (hc : noConstructWaits s) (ht : step s = .next t) :
    noConstructWaits t := by
  intro cw hcw
  rcases step_host ht with hh | hh <;> rw [hh] at hcw
  · exact hc cw hcw
  · exact hc cw (List.mem_of_mem_tail hcw)

/-! ### The run -/

/-- A run of `k + 1` steps that reaches a state makes a step and a run of `k` steps from there. -/
theorem run_succ_inv {k : Nat} (h : Host.Core.run Sys2Proof.core (k + 1) s = .next t) :
    ∃ u, step s = .next u ∧ Host.Core.run Sys2Proof.core k u = .next t := by
  cases hs : step s with
  | next u => exact ⟨u, rfl, (run_succ_next hs).symm.trans h⟩
  | fault r => cases (run_succ_fault hs).symm.trans h
  | refused r => cases (run_succ_refused hs).symm.trans h

theorem run_handsOutBlock {k : Nat} (hc : noConstructWaits s)
    (h : Host.Core.run Sys2Proof.core k s = .next t) : HandsOutBlock s t := by
  induction k generalizing s with
  | zero => cases h; exact .refl _
  | succ k ih =>
    obtain ⟨u, hs, hu⟩ := run_succ_inv h
    exact (step_handsOutBlock hc hs).trans (ih (step_noConstructWaits hc hs) hu)

end

/-- Settles O46, by induction on the number of steps: each hands out a block of ids, and blocks join. -/
theorem sequenceIdsHaveNoGapsOrRepeats : Obligations.SequenceIdsHaveNoGapsOrRepeats :=
  fun _ _ _ => run_handsOutBlock

end Sys2Proof.Machine
end

section
/-! SUPPORT. The trap dispatch and the progress guard (spec/42_trap_dispatch.md R120 to R129): what each
trap class, each progress class and each phase of the run loop does, and who writes the trace. -/

namespace Sys2Proof.Machine

/-! ### The progress guard -/

/-- A step returns whatever instruction the slot holds, by the command in progress (R111). -/
theorem State.returnStep_eq (s : State) : s.returnStep = { s with
    record := s.slot.map s.recordOf,
    runState := if s.runState = .running then .running else .idle,
    runcnt := if s.runState = .running then s.runcnt + 1 else s.runcnt,
    phase := if s.runState = .running then some .trace else none } := by
  rcases s.returnStep_cases with ⟨hrun, heq⟩ | ⟨hrun, heq⟩ <;> simp [heq, hrun]

/-- The return of a step is no fault. -/
theorem State.returnStep_runState_ne_fault (s : State) : s.returnStep.runState ≠ .fault := by
  rcases s.returnStep_cases with ⟨hrun, heq⟩ | ⟨_, heq⟩ <;> rw [heq]
  · exact fun hfault => nomatch hrun.symm.trans hfault
  · exact nofun

/-- Below the limit a no-op is counted and the step returns, whatever the slot holds (R127). -/
theorem State.countNoOp_eq_returnStep {s : State} (h : s.nopcnt.toNat < 10) :
    s.countNoOp = { s with nopcnt := s.nopcnt + 1 }.returnStep := by
  rcases s.countNoOp_cases with ⟨hlt, _⟩ | ⟨_, heq⟩
  · bv_omega
  · exact heq

/-- Settles O17. -/
theorem progressClassesUpdateTheCounter : Obligations.ProgressClassesUpdateTheCounter := by
  intro s returned
  have hreturn (n : BitVec 32) : { s with nopcnt := n }.returnStep = returned n :=
    State.returnStep_eq { s with nopcnt := n }
  exact ⟨congrArg _ (hreturn 0),
    fun hlt => congrArg _ ((State.countNoOp_eq_returnStep hlt).trans (hreturn _))⟩

/-- Settles O18: the guard tests the updated counter, so the fault comes at 10 and not at 9. -/
theorem eleventhNoOpRaisesRunaway : Obligations.EleventhNoOpRaisesRunaway := by
  refine ⟨fun s hcnt => ?_, fun s i hcnt hs hn => ?_, fun s hcnt => ?_⟩
  · exact congrArg _ (State.countNoOp_of_limit hcnt)
  · rw [exec_phNop_noOp hs hn, State.countNoOp_of_limit (s := s.ask .isNoOp) hcnt]
    rfl
  · have hret := State.countNoOp_eq_returnStep (s := s) (by rw [hcnt]; decide)
    have hnine : s.countNoOp.nopcnt = 10 := by rw [State.countNoOp_nopcnt, hcnt]; rfl
    have hterm : s.countNoOp.term = s.term := by rw [hret, State.returnStep_term]
    exact ⟨s.countNoOp, rfl, hnine, hterm, hret ▸ State.returnStep_runState_ne_fault _⟩

/-! ### The trap classes -/

/-- Settles O24: both classes are the loop condition. -/
theorem noTrapAndOtherGoToTheLoopCondition : Obligations.NoTrapAndOtherGoToTheLoopCondition := by
  intro sub s
  have hnotrap : exec (.kNotrap sub) s = .next s.loopCondition := rfl
  have hother : exec (.kOther sub) s = .next s.loopCondition := rfl
  rw [hnotrap, hother]
  refine ⟨fun hlt => ?_, fun hle => ?_⟩
  · rw [State.loopCondition_of_lt hlt]
    exact ⟨rfl, rfl⟩
  · rw [State.loopCondition_of_le hle]
    exact ⟨rfl, rfl⟩

/-- Settles O25. -/
theorem haltEndsTheRunAndSyscallEntersTheHandlerPhase :
    Obligations.HaltEndsTheRunAndSyscallEntersTheHandlerPhase :=
  fun _ _ => ⟨rfl, rfl⟩

/-- The row of a trap class never reads the sub-code (R126). -/
theorem exec_decodeTrap_trapWord (k : BitVec 2) (sub sub' : BitVec 6) (s : State) :
    exec (decodeTrap (trapWord k sub)) s = exec (decodeTrap (trapWord k sub')) s := by
  rcases trapClass_cases k with rfl | rfl | rfl | rfl
  · simp only [decodeTrap_notrap]; rfl
  · simp only [decodeTrap_syscall]; rfl
  · simp only [decodeTrap_halt]; rfl
  · simp only [decodeTrap_other]; rfl

/-- Settles O26. -/
theorem dispatchRunsTheClassOfTheTrapKind : Obligations.DispatchRunsTheClassOfTheTrapKind := by
  refine ⟨fun s i hs => ?_, fun s tk tk' hk => ?_⟩
  · have hrow := exec_decodeTrap i.trapKind (s.ask .trapKind)
    exact ⟨_, (exec_phDispatch hs).trans hrow, hrow⟩
  · obtain ⟨k, sub, rfl⟩ := exists_trapWord tk
    obtain ⟨k', sub', rfl⟩ := exists_trapWord tk'
    obtain rfl : k = k' := by simpa using hk
    exact exec_decodeTrap_trapWord k sub sub' s

/-! ### The handler phase -/

/-- The loop condition as one update of PHASE, STATE and TERM (R126, R131). -/
theorem State.loopCondition_eq (s : State) : s.loopCondition = { s with
    phase := if s.runcnt.toNat < s.runmax.toNat then some .fetch else none,
    runState := if s.runcnt.toNat < s.runmax.toNat then s.runState else .idle,
    term := if s.runcnt.toNat < s.runmax.toNat then s.term else .notrap } := by
  rcases s.loopCondition_cases with ⟨hlt, heq⟩ | ⟨hle, heq⟩
  · simp [heq, hlt]
  · simp [heq, hle.not_gt]

section
variable {s : State}

theorem exec_phSyscall_ignored (hg : s.syscallsIgnored = true) :
    exec .phSyscall s = .next s.loopCondition :=
  if_pos hg

theorem exec_phSyscall_answer {w : HandlerWorld} (hg : s.syscallsIgnored = false)
    (ha : answerSyscall s = .answer w) : exec .phSyscall s = .next
    { s.ask .syscallExecute with regs := w.regs, handler := w.handler }.loopCondition :=
  (if_neg (ne_true_of_eq_false hg)).trans (transact_answer _ _ ha)

end

/-- Settles O27: the handler answers or is not asked, and the loop condition follows either way. -/
theorem syscallPhaseAsksTheHandlerOnceIfEnabled :
    Obligations.SyscallPhaseAsksTheHandlerOnceIfEnabled := by
  intro s continued
  refine ⟨fun hg => ?_, fun w hg ha => ?_⟩
  · exact (exec_phSyscall_ignored hg).trans (congrArg _ (State.loopCondition_eq s))
  · exact (exec_phSyscall_answer hg ha).trans (congrArg _ (State.loopCondition_eq _))

/-! ### The trace -/

theorem exec_phTrace {s : State} {i : Insn} (hs : s.slot = some i) : exec .phTrace s = .next
    { s.ask .traceEmit with
      trace := s.trace ++
        [{ record := s.recordOf i, logEnabled := s.logEnabled, text := textOf s i }],
      phase := some .dispatch } :=
  withSlot_some _ hs

/-- Settles O23. -/
theorem traceEmitsEveryReturnedInstruction : Obligations.TraceEmitsEveryReturnedInstruction :=
  fun _ _ => exec_phTrace

/-- Settles O41, by the cases of `Ran`: PH10 appends the slot's record, no other case writes the trace. -/
theorem traceGrowsOnlyInTheTracePhase : Obligations.TraceGrowsOnlyInTheTracePhase := by
  intro i s t h
  cases exec_ran h with
  | trace _ k hk => exact .inl ⟨rfl, k, _, hk, rfl, rfl, rfl, rfl, rfl, rfl⟩
  | _ => exact .inr ⟨nofun, by simp⟩

end Sys2Proof.Machine
end

section
/-! SUPPORT. State FAULT (spec/60_exceptions.md R141, R147, R150): which steps lead out of it and which
lead into it, each from one case split over `Ran`. -/

namespace Sys2Proof.Machine

section
variable {s t : State} {i : Instr}

/-! ### Operations that do not end in FAULT -/

theorem State.loopCondition_runState_ne_fault (h : s.runState ≠ .fault) :
    s.loopCondition.runState ≠ .fault := by
  rcases s.loopCondition_cases with ⟨_, heq⟩ | ⟨_, heq⟩ <;> rw [heq]
  · exact h
  · exact nofun

theorem State.dispatch_runState_ne_fault (tk : TrapCode) (h : s.runState ≠ .fault) :
    (s.dispatch tk).runState ≠ .fault := by
  rcases s.dispatch_cases tk with ⟨_, heq⟩ | ⟨_, heq⟩ | ⟨_, heq⟩ <;> rw [heq]
  · exact State.loopCondition_runState_ne_fault h
  · exact h
  · exact nofun

/-! ### The way out -/

/-- A RUN that starts is RUNNING, or over at once with its cap of 0. -/
theorem run_started_runState_ne_fault (n : Word64) :
    { s.initEffects .running with runmax := n, runcnt := 0 }.loopCondition.runState ≠ .fault :=
  State.loopCondition_runState_ne_fault nofun

/-- The commands that lead from FAULT to another STATE. -/
theorem Ran.command_leaves_fault_iff (hr : Ran i s t) (hi : i.format = .cmd)
    (hf : s.runState = .fault) :
    t.runState ≠ .fault ↔ (∃ l g, i = .construct l g) ∨
      (s.memBound = true ∧ (i = .init ∨ ∃ n, i = .run n)) := by
  cases hr with
  | construct l g => exact iff_of_true nofun (.inl ⟨l, g, rfl⟩)
  | init _ hb => exact iff_of_true nofun (.inr ⟨hb, .inl rfl⟩)
  | run n _ hb => exact iff_of_true (run_started_runState_ne_fault n) (.inr ⟨hb, .inr ⟨n, rfl⟩⟩)
  | bindMemory | stepRefused => exact iff_of_false (not_not_intro hf) (by simp)
  | initRefused _ hb | runRefused _ _ hb => exact iff_of_false (not_not_intro hf) (by simp [hb])
  | step _ hne => exact absurd hf hne
  | _ => cases hi

/-- STATE changes only by a command the host presents or by the phase in progress. -/
theorem step_runState_changed (ht : step s = .next t) (hne : t.runState ≠ s.runState) :
    (∃ cw rest i, s.host = .command cw :: rest ∧ decodeCommand cw = some i ∧
      Ran i { s with host := rest } t) ∨
    ∃ p, quiescent s = false ∧ s.phase = some p ∧ Ran p.instr s t := by
  rcases step_cases s with ⟨_, _, hs⟩ | ⟨cw, rest, _, hh, ⟨_, hs⟩ | ⟨i, hd, hs⟩⟩ |
    ⟨m, a, b, rest, _, _, hs⟩ | ⟨r, rest, _, _, hs⟩ | ⟨w, rest, _, _, hs⟩ |
    ⟨p, hq, hp, hs⟩ | ⟨_, _, hs⟩ <;> rw [hs] at ht
  · cases ht; exact absurd rfl hne
  · cases ht; exact absurd rfl hne
  · exact .inl ⟨cw, rest, i, hh, hd, exec_ran ht⟩
  · cases ht; exact absurd rfl hne
  · cases ht; exact absurd rfl hne
  · cases ht; exact absurd rfl hne
  · exact .inr ⟨p, hq, hp, exec_ran ht⟩
  · cases ht

/-! ### The way in -/

/-- A phase's code gives the phase back from its row. -/
theorem phaseOfCode_encode_instr (p : Phase) : phaseOfCode (encode p.instr) = some p := by
  cases p <;> rfl

theorem phase_instr_injective : Function.Injective Phase.instr := fun p q h =>
  Option.some_injective _ <| calc
    some p = phaseOfCode (encode p.instr) := (phaseOfCode_encode_instr p).symm
    _ = phaseOfCode (encode q.instr) := by rw [h]
    _ = some q := phaseOfCode_encode_instr q

theorem phase_instr_format (p : Phase) : p.instr.format = .ph := by
  cases p <;> rfl

/-- The phases whose transaction can answer `abort` (R110, R141). -/
def abortingPhases : List Phase := [.fetch, .read, .exec, .mem, .wb, .trap, .syscall]

/-- A no-op that ends in FAULT has been counted above the limit. -/
theorem State.countNoOp_faulted (h : s.countNoOp.runState = .fault) :
    ∃ u : State, 10 < u.nopcnt.toNat ∧ s.countNoOp = u.faultEntry .runaway := by
  rcases s.countNoOp_cases with ⟨hlimit, heq⟩ | ⟨_, heq⟩
  · exact ⟨_, hlimit, heq⟩
  · exact absurd (heq ▸ h) (State.returnStep_runState_ne_fault _)

/-- An instruction that leads into FAULT took the fault entry: of RunawayExecution after counting a
no-op, or of the abort of its own phase (R141, R147). -/
theorem Ran.enters_fault (hr : Ran i s t) (hs : s.runState ≠ .fault) (ht : t.runState = .fault) :
    ((i = .phNop ∨ i = .npNop) ∧ ∃ u : State, 10 < u.nopcnt.toNat ∧ t = u.faultEntry .runaway) ∨
    ∃ (p : Phase) (u : State), p ∈ abortingPhases ∧ i = p.instr ∧ t = u.faultEntry (.collab p) := by
  cases hr with
  | nopNoOp => exact .inl ⟨.inl rfl, State.countNoOp_faulted ht⟩
  | npNop => exact .inl ⟨.inr rfl, State.countNoOp_faulted ht⟩
  | fetchAbort => exact .inr ⟨.fetch, _, by decide, rfl, rfl⟩
  | readAbort => exact .inr ⟨.read, _, by decide, rfl, rfl⟩
  | executeAbort => exact .inr ⟨.exec, _, by decide, rfl, rfl⟩
  | loadStoreAbort => exact .inr ⟨.mem, _, by decide, rfl, rfl⟩
  | writeDstAbort => exact .inr ⟨.wb, _, by decide, rfl, rfl⟩
  | checkTrapAbort => exact .inr ⟨.trap, _, by decide, rfl, rfl⟩
  | syscallAbort => exact .inr ⟨.syscall, _, by decide, rfl, rfl⟩
  | nopProgress | npNonnop => exact absurd ht (State.returnStep_runState_ne_fault _)
  | dispatch => exact absurd ht (State.dispatch_runState_ne_fault _ hs)
  | run n => exact absurd ht (run_started_runState_ne_fault n)
  | kNotrap | kOther | syscallIgnored | syscall =>
    exact absurd ht (State.loopCondition_runState_ne_fault hs)
  | construct | init | step | kHalt => cases ht
  | _ => exact absurd ht hs

/-- No command leads into FAULT. -/
theorem Ran.command_runState_ne_fault (hr : Ran i s t) (hi : i.format = .cmd)
    (hs : s.runState ≠ .fault) : t.runState ≠ .fault := by
  intro ht
  rcases hr.enters_fault hs ht with ⟨rfl | rfl, _⟩ | ⟨p, _, _, rfl, _⟩
  · cases hi
  · cases hi
  · exact nomatch (phase_instr_format p).symm.trans hi

/-- A phase that leads into FAULT is PH9 above the limit, or one whose transaction aborted. -/
theorem Ran.phase_enters_fault {p : Phase} (hr : Ran p.instr s t) (hs : s.runState ≠ .fault)
    (ht : t.runState = .fault) :
    ∃ u : State, (p = .nop ∧ 10 < u.nopcnt.toNat ∧ t = u.faultEntry .runaway) ∨
      (p ∈ abortingPhases ∧ t = u.faultEntry (.collab p)) := by
  rcases hr.enters_fault hs ht with ⟨hnop | hnp, u, hlimit, heq⟩ | ⟨q, u, hq, hpq, heq⟩
  · exact ⟨u, .inl ⟨phase_instr_injective (hnop : _ = Phase.nop.instr), hlimit, heq⟩⟩
  · exact nomatch (phase_instr_format p).symm.trans (congrArg Instr.format hnp)
  · cases phase_instr_injective hpq
    exact ⟨u, .inr ⟨hq, heq⟩⟩

end

/-! ### The obligations about FAULT -/

/-- Settles O43: a command is all that can change STATE in FAULT, and of the commands these three do. -/
theorem faultIsLeftOnlyByInitRunAndConstruct :
    Obligations.FaultIsLeftOnlyByInitRunAndConstruct := by
  intro s t ht hs hne
  rcases step_runState_changed ht (hs.symm ▸ hne) with ⟨cw, rest, i, hh, hd, hr⟩ | ⟨_, hq, _⟩
  · refine ⟨cw, rest, i, hh, hd, ?_⟩
    rcases (hr.command_leaves_fault_iff (decodeCommand_format hd) hs).mp hne with
      hconstruct | ⟨_, hinit | hrun⟩
    · exact .inr (.inr hconstruct)
    · exact .inl hinit
    · exact .inr (.inl hrun)
  · exact nomatch ((quiescent_iff s).mpr (.inr hs)).symm.trans hq

/-- Settles O44. -/
theorem commandsThatLeaveFault : Obligations.CommandsThatLeaveFault :=
  fun _ hs => ⟨fun _ _ hi ht => (exec_ran ht).command_leaves_fault_iff hi hs, execStep_fault hs,
    fun _ => ⟨_, rfl, hs, rfl⟩⟩

/-- Settles O45: no command leads into FAULT, and a phase does so by the fault entry alone. -/
theorem faultIsEnteredOnlyByRunawayOrAbort : Obligations.FaultIsEnteredOnlyByRunawayOrAbort := by
  intro s t ht hs hfault
  rcases step_runState_changed ht (hfault.symm ▸ hs.symm) with
    ⟨_, _, _, _, hd, hr⟩ | ⟨p, hq, hp, hr⟩
  · exact absurd hfault (hr.command_runState_ne_fault (decodeCommand_format hd) hs)
  · obtain ⟨u, ⟨rfl, hlimit, rfl⟩ | ⟨hmem, rfl⟩⟩ := hr.phase_enters_fault hs hfault
    · exact ⟨hq, rfl, rfl, .inl ⟨hp, hlimit, rfl, rfl⟩⟩
    · exact ⟨hq, rfl, rfl, .inr ⟨p, hp, hmem, rfl, rfl⟩⟩

/-- Settles O22: the fault entry is its five writes, with TERM and FPHASE as the cause gives them. -/
theorem faultEntryWritesOnlyStatus : Obligations.FaultEntryWritesOnlyStatus :=
  ⟨fun _ => rfl, fun _ _ => rfl⟩

end Sys2Proof.Machine
end

section
/-! SUPPORT. How long a command stays in progress (spec/70_reset_and_hazards.md R167, R169): a phase whose
collaborator never answers has no next state, and each of the others lessens `remaining`. -/

namespace Sys2Proof.Machine

/-! ### A collaborator that never answers -/

section
variable {α β : Type} {p : Phase} {s : State} {i : Insn}

/-- A transaction that is never answered. -/
theorem transact_silent {r : Resp α β} (f : α → State) (g : β → State) (h : r = .silent) :
    transact p r f g = .fault (.noAnswer p) := by
  rw [h]
  rfl

theorem withSlot_transact_silent {resp : Insn → Resp α β} {f : Insn → α → State}
    {g : Insn → β → State} (hs : s.slot = some i) (h : resp i = .silent) :
    withSlot p s (fun j => transact p (resp j) (f j) (g j)) = .fault (.noAnswer p) :=
  (withSlot_some _ hs).trans (transact_silent _ _ h)

theorem exec_phSyscall_silent (hg : s.syscallsIgnored = false) (h : answerSyscall s = .silent) :
    exec .phSyscall s = .fault (.noAnswer .syscall) :=
  (if_neg (ne_true_of_eq_false hg)).trans (transact_silent _ _ h)

end

/-- Settles O21: a transaction that is never answered stops by the name of its phase, whether it is
about the instruction in the slot (PH3 to PH7) or not (PH1, PH12). -/
theorem silentCollaboratorLeavesNoStep : Obligations.SilentCollaboratorLeavesNoStep :=
  ⟨fun _ => transact_silent _ _,
    fun _ _ hs => ⟨withSlot_transact_silent hs, withSlot_transact_silent hs,
      withSlot_transact_silent hs, withSlot_transact_silent hs, withSlot_transact_silent hs⟩,
    fun _ => exec_phSyscall_silent⟩

/-! ### The measure -/

section
variable {s t : State} {p q : Phase}

theorem remaining_of_no_phase (hp : s.phase = none) : remaining s = 0 := by
  simp [remaining, hp]

theorem remaining_of_not_running (hp : s.phase = some p) (hs : s.runState ≠ .running) :
    remaining s = 10 - p.code := by
  simp [remaining, hp, hs]

/-- In PH1 to PH9 of a RUN the step in progress is one of those the cap leaves. -/
theorem remaining_of_running_step (hp : s.phase = some p) (hs : s.runState = .running)
    (hcode : p.code ≤ 9) :
    remaining s = 12 * (s.runmax.toNat - s.runcnt.toNat) + 1 - p.code := by
  simp [remaining, hp, hs, hcode]

/-- In PH10 to PH12 of a RUN the step in progress has been counted. -/
theorem remaining_of_running_loop (hp : s.phase = some p) (hs : s.runState = .running)
    (hcode : 10 ≤ p.code) :
    remaining s = 12 * (s.runmax.toNat - s.runcnt.toNat) + 13 - p.code := by
  have hloop : ¬ p.code ≤ 9 := by omega
  simp [remaining, hp, hs, hloop]

theorem inStep_some_iff : inStep (some p) = true ↔ p.code ≤ 9 := decide_eq_true_iff

theorem phase_code_le (p : Phase) : p.code ≤ 12 := by
  cases p <;> decide

/-- A command in progress past PH9 is a RUN (R93). -/
theorem Invariant.running_of_loop (h : Invariant s) (hp : s.phase = some p) (hcode : 10 ≤ p.code) :
    s.runState = .running := by
  refine (h.inProgress hp).busy.resolve_left fun hs => ?_
  have hle := inStep_some_iff.mp (hp ▸ h.stepping_phase hs)
  omega

/-- With a phase in progress there is a step to take: in PH1 to PH9 of a RUN the cap leaves room for
it. -/
theorem Invariant.remaining_pos (h : Invariant s) (hp : s.phase = some p) : 0 < remaining s := by
  have hcode := phase_code_le p
  by_cases hloop : 10 ≤ p.code
  · rw [remaining_of_running_loop hp (h.running_of_loop hp hloop) hloop]
    omega
  · by_cases hrun : s.runState = .running
    · have hroom := h.run_room hrun (by rw [hp, inStep_some_iff]; omega)
      rw [remaining_of_running_step hp hrun (by omega)]
      omega
    · rw [remaining_of_not_running hp hrun]
      omega

theorem Invariant.remaining_lt_of_ended (h : Invariant s) (hp : s.phase = some p)
    (ht : t.phase = none) : remaining t < remaining s := by
  rw [remaining_of_no_phase ht]
  exact h.remaining_pos hp

/-- The next phase of the same step, or of the same turn of the run loop, leaves one step less. -/
theorem Invariant.remaining_advance_lt (h : Invariant s) (hp : s.phase = some p)
    (hq : t.phase = some q) (hnext : q.code = p.code + 1)
    (hpq : inStep (some q) = inStep (some p))
    (hrun : (t.runState, t.runcnt, t.runmax) = (s.runState, s.runcnt, s.runmax)) :
    remaining t < remaining s := by
  obtain ⟨hstate, hcnt, hmax⟩ : _ ∧ _ ∧ _ := by simpa only [Prod.mk.injEq] using hrun
  have hiff : p.code + 1 ≤ 9 ↔ p.code ≤ 9 := by
    rw [← hnext, ← inStep_some_iff, hpq, inStep_some_iff]
  have hpred : remaining t = remaining s - 1 := by
    simp only [remaining, hp, hq, hstate, hcnt, hmax, hnext, hiff]
    split <;> omega
  have hpos := h.remaining_pos hp
  omega

/-- The return of a step ends a STEP; of a RUN it leaves PH10 to PH12 and one step of the cap less. -/
theorem State.remaining_returnStep_lt (hp : s.phase = some .nop)
    (hroom : s.runState = .running → s.runcnt.toNat < s.runmax.toNat) :
    remaining s.returnStep < remaining s := by
  rcases s.returnStep_cases with ⟨hrun, heq⟩ | ⟨hrun, heq⟩ <;> rw [heq]
  · have hlt := hroom hrun
    have hcount : (s.runcnt + 1).toNat = s.runcnt.toNat + 1 := by bv_omega
    rw [remaining_of_running_step hp hrun (by decide)]
    refine lt_of_eq_of_lt (remaining_of_running_loop (p := .trace) rfl hrun (by decide)) ?_
    simp only [hcount, Phase.code]
    omega
  · rw [remaining_of_no_phase rfl, remaining_of_not_running hp hrun]
    decide

theorem State.remaining_countProgress_lt (hp : s.phase = some .nop)
    (hroom : s.runState = .running → s.runcnt.toNat < s.runmax.toNat) :
    remaining s.countProgress < remaining s :=
  State.remaining_returnStep_lt (s := { s with nopcnt := 0 }) hp hroom

/-- A no-op above the limit ends the command, and one within it returns the step. -/
theorem Invariant.remaining_countNoOp_lt (h : Invariant s) (hp : s.phase = some .nop) :
    remaining s.countNoOp < remaining s := by
  rcases s.countNoOp_cases with ⟨_, heq⟩ | ⟨_, heq⟩ <;> rw [heq]
  · exact h.remaining_lt_of_ended hp rfl
  · exact State.remaining_returnStep_lt (s := { s with nopcnt := s.nopcnt + 1 }) hp fun hrun =>
      h.run_room hrun (by rw [hp]; rfl)

/-- The loop condition ends the run, or opens the next of the steps the cap leaves: from PH11 and PH12
that is less than what remained. -/
theorem State.remaining_loopCondition_lt (hp : s.phase = some p) (hs : s.runState = .running)
    (hcode : 10 ≤ p.code) : remaining s.loopCondition < remaining s := by
  have hle := phase_code_le p
  rw [remaining_of_running_loop hp hs hcode]
  rcases s.loopCondition_cases with ⟨_, heq⟩ | ⟨_, heq⟩ <;> rw [heq]
  · refine lt_of_eq_of_lt (remaining_of_running_step (p := .fetch) rfl hs (by decide)) ?_
    have hone : Phase.fetch.code = 1 := rfl
    simp only [hone]
    omega
  · rw [remaining_of_no_phase rfl]
    omega

/-! ### The phases -/

/-- PH11 enters PH12, ends the run or goes to the loop condition. -/
theorem Invariant.remaining_dispatch_lt (h : Invariant s) (hp : s.phase = some .dispatch)
    (tk : TrapCode) : remaining (s.dispatch tk) < remaining s := by
  rcases s.dispatch_cases tk with ⟨_, heq⟩ | ⟨_, heq⟩ | ⟨_, heq⟩ <;> rw [heq]
  · exact State.remaining_loopCondition_lt hp (h.running_of_loop hp (by decide)) (by decide)
  · exact h.remaining_advance_lt hp (t := s.enterSyscall) rfl rfl rfl rfl
  · exact h.remaining_lt_of_ended hp rfl

/-- A phase that has a next state lessens what remains: it goes on to the next phase, aborts, which
ends the command, or ends as PH9, PH11 and PH12 do. -/
theorem Ran.remaining_lt (hr : Ran p.instr s t) (h : Invariant s) (hp : s.phase = some p) :
    remaining t < remaining s := by
  cases p with
  | seq | pc | trace =>
    cases hr
    exact h.remaining_advance_lt hp rfl rfl rfl rfl
  | fetch | read | exec | mem | wb | trap =>
    cases hr
    · exact h.remaining_advance_lt hp rfl rfl rfl rfl
    · exact h.remaining_lt_of_ended hp rfl
  | nop =>
    cases hr with
    | nopNoOp =>
      exact Invariant.remaining_countNoOp_lt (s := s.ask .isNoOp) { h with } hp
    | nopProgress =>
      exact State.remaining_countProgress_lt (s := s.ask .isNoOp) hp fun hrun =>
        h.run_room hrun (by rw [hp]; rfl)
  | dispatch =>
    cases hr with
    | dispatch _ i =>
      exact Invariant.remaining_dispatch_lt (s := s.ask .trapKind) { h with } hp i.trapKind
  | syscall =>
    have hrun := h.running_of_loop hp (by decide)
    cases hr with
    | syscallIgnored => exact State.remaining_loopCondition_lt hp hrun (by decide)
    | syscall _ w =>
      exact State.remaining_loopCondition_lt hp hrun (by decide)
        (s := { s.ask .syscallExecute with regs := w.regs, handler := w.handler })
    | syscallAbort => exact h.remaining_lt_of_ended hp rfl

/-! ### The run of a command -/

/-- The command is over, or stuck on a collaborator that never answers. -/
def EndedOrSilent (r : Result) : Prop :=
  (∃ t, r = .next t ∧ quiescent t = true) ∨ ∃ p, r = .fault (.noAnswer p)

/-- Within what remains the command is over or stuck. -/
theorem Invariant.run_endedOrSilent (h : Invariant s) :
    ∃ k ≤ remaining s, EndedOrSilent (Host.Core.run Sys2Proof.core k s) := by
  induction hn : remaining s using Nat.strong_induction_on generalizing s with
  | _ n ih =>
    subst hn
    cases hp : s.phase with
    | none => exact ⟨0, Nat.zero_le _, .inl ⟨s, rfl, h.phase_quiescent.mpr hp⟩⟩
    | some p =>
      have hstep := step_busy (h.busy hp) hp
      rcases exec_phase_nextOrSilent p s (h.slot_held p hp) with ⟨t, ht⟩ | hsilent
      · have hlt := (exec_ran ht).remaining_lt h hp
        have hinv : Invariant t := (exec_ran ht).invariant_of_phase h hp
        obtain ⟨k, hk, hend⟩ := ih (remaining t) hlt hinv rfl
        exact ⟨k + 1, by omega, (run_succ_next (hstep.trans ht)).symm ▸ hend⟩
      · exact ⟨1, h.remaining_pos hp, .inr ⟨p, run_succ_fault (hstep.trans hsilent)⟩⟩

end

/-- Settles O28: the run ends within `remaining`, by induction on it, and `remaining` is the bound the
statement spells out in each case. -/
theorem commandInProgressEndsWithinTheBound :
    Obligations.CommandInProgressEndsWithinTheBound := by
  intro s p h _ hp
  obtain ⟨k, hk, hend⟩ := h.run_endedOrSilent
  have hstepping : s.runState = .stepping → remaining s = 10 - p.code :=
    fun hs => remaining_of_not_running hp (hs ▸ nofun)
  refine ⟨k, hk, hstepping, remaining_of_running_step hp, remaining_of_running_loop hp, ?_⟩
  rcases hend with ⟨t, hrun, hq⟩ | ⟨q, hrun⟩ <;> rw [hrun]
  · exact hq
  · exact ⟨q, rfl⟩

end Sys2Proof.Machine
end
